-- ==== Sys2Proof/Word.lean ====
section
/-! DEFINITION. The widths of the block's data: a byte, a nibble, and a 3-byte array (R8, R39). -/

namespace Sys2Proof

/-- A byte is 8 bits (R8). -/
abbrev Byte := BitVec 8

/-- Half an operation word: its `op` or its `arg` (R58). -/
abbrev Nibble := BitVec 4

/-- Three bytes with index 0 to 2: the spaces REPORT and TXBUF, and a HidReport (R39, R43). -/
structure Bytes3 where
  b0 : Byte
  b1 : Byte
  b2 : Byte
deriving DecidableEq, Repr, Inhabited

end Sys2Proof
end

