-- ==== Sys2Proof/Syntax.lean ====
section
/-! DEFINITION. The block's 15 operations, one constructor per row of the opcode map (R60). -/

namespace Sys2Proof

/-- An operation. Only WAIT has an operand (R61). -/
inductive Instr where
  | nop
  | latchHi
  | latchLo
  | clkHi
  | clkLo
  | sample
  | wait (t : Nat)
  | read
  | chkrdy
  | drain
  | cmp
  | encode
  | send
  | commit
  | iter
deriving DecidableEq, Repr

end Sys2Proof
end

