-- ==== Sys2Proof/WellFormed.lean ====
section
/-! DEFINITION. Which operations have a word: WAIT's operand is a count from 0 to 15 (R61). -/

namespace Sys2Proof

/-- The one check an operation must pass to be written as a word: R61's range of WAIT's operand. -/
def wellFormed : Instr → Bool
  | .wait t => decide (t ≤ 15)
  | .nop => true
  | .latchHi => true
  | .latchLo => true
  | .clkHi => true
  | .clkLo => true
  | .sample => true
  | .read => true
  | .chkrdy => true
  | .drain => true
  | .cmp => true
  | .encode => true
  | .send => true
  | .commit => true
  | .iter => true

end Sys2Proof
end

