-- ==== Sys2Proof/Decode.lean ====
section
/-! DEFINITION. The operation word (R58 to R64): the total decoder, the encoder, and the opcode table's words. -/

namespace Sys2Proof

/-- Bits 7:4 of an operation word (R58). -/
def opOf (w : Byte) : Nibble := w.extractLsb' 4 4

/-- Bits 3:0 of an operation word (R58). -/
def argOf (w : Byte) : Nibble := w.extractLsb' 0 4

/-- Why a word spells no operation (R62). -/
inductive DecodeError where
  /-- `RESERVED_OP`: op is 0xF. -/
  | reservedOp
  /-- `NONZERO_ARG`: a format N word whose arg is not 0. -/
  | nonzeroArg
deriving DecidableEq, Repr

/-- The two formats of R59. -/
inductive Format where
  | n
  | w
deriving DecidableEq, Repr

/-- The format of each operation (R59, R60). -/
def formatOf : Instr → Format
  | .wait _ => .w
  | .nop => .n
  | .latchHi => .n
  | .latchLo => .n
  | .clkHi => .n
  | .clkLo => .n
  | .sample => .n
  | .read => .n
  | .chkrdy => .n
  | .drain => .n
  | .cmp => .n
  | .encode => .n
  | .send => .n
  | .commit => .n
  | .iter => .n

/-- The format N rows of the opcode map (R60). -/
def nMap : List (Nibble × Instr) :=
  [(0x0, .nop), (0x1, .latchHi), (0x2, .latchLo), (0x3, .clkHi), (0x4, .clkLo), (0x5, .sample),
   (0x7, .read), (0x8, .chkrdy), (0x9, .drain), (0xA, .cmp), (0xB, .encode), (0xC, .send),
   (0xD, .commit), (0xE, .iter)]

/-- Decoding is a total function of the 8-bit word (R62). -/
def decode (w : Byte) : Except DecodeError Instr :=
  if opOf w = 0x6 then .ok (.wait (argOf w).toNat)
  else if opOf w = 0xF then .error .reservedOp
  else if argOf w ≠ 0 then .error .nonzeroArg
  else
    match nMap.lookup (opOf w) with
    | some i => .ok i
    | none => .error .reservedOp

/-- Each operation's op (R60). -/
def opcode : Instr → Nibble
  | .nop => 0x0
  | .latchHi => 0x1
  | .latchLo => 0x2
  | .clkHi => 0x3
  | .clkLo => 0x4
  | .sample => 0x5
  | .wait _ => 0x6
  | .read => 0x7
  | .chkrdy => 0x8
  | .drain => 0x9
  | .cmp => 0xA
  | .encode => 0xB
  | .send => 0xC
  | .commit => 0xD
  | .iter => 0xE

/-- Each operation's arg: WAIT's count, else 0 (R59). -/
def argument : Instr → Nibble
  | .wait t => BitVec.ofNat 4 t
  | .nop => 0
  | .latchHi => 0
  | .latchLo => 0
  | .clkHi => 0
  | .clkLo => 0
  | .sample => 0
  | .read => 0
  | .chkrdy => 0
  | .drain => 0
  | .cmp => 0
  | .encode => 0
  | .send => 0
  | .commit => 0
  | .iter => 0

/-- The word of a well-formed operation: op in the high bits, arg in the low bits (R58, R60). -/
def encode (i : Instr) : Byte := opcode i ++ argument i

/-- The operation word whose bits are the low `nbits` of `w`; one word is the whole operation (R58). -/
def tableWord (nbits w : Nat) : Byte := BitVec.ofNat 8 (w % 2 ^ nbits)

/-- What the decoder reads from a word of spec/opcode_table.json. -/
def decodeTableWord (nbits w : Nat) : Option Instr :=
  match decode (tableWord nbits w) with
  | .ok i => some i
  | .error _ => none

end Sys2Proof
end

