-- ==== Sys2Proof/Config.lean ====
section
/-! DEFINITION. What the source fixes, what an implementation fixes, and the free values (R7, R36). -/

namespace Sys2Proof

/-- Electrical level of DATA for a pressed button (R7, R70). -/
inductive Polarity where
  | activeLow
  | activeHigh
deriving DecidableEq, Repr, Inhabited

/-- The parameters R7 leaves open or marks as the model's argument. They are held in State (`State.params`), which
no step writes, so a claim about every state is a claim about every value of them (log 2). -/
structure Params where
  /-- `W_LATCH`: minimum latch-high time, in units. -/
  wLatch : Nat
  /-- `W_CLKH`: minimum clock-high (settle) time, in units. -/
  wClkh : Nat
  /-- `W_CLKL`: minimum clock-low time, in units. -/
  wClkl : Nat
  /-- `T_UNIT`: the length of one time unit, in nanoseconds; no rule reads it. -/
  tUnit : Nat
  /-- `DATA_POLARITY`. -/
  dataPolarity : Polarity
  /-- `PAD_PRESENT`. -/
  padPresent : Bool
  /-- `ABSENT_LEVEL`: the DATA level with no controller. -/
  absentLevel : Bool
  /-- `FILL_BIT`: the bit behind the pad's last button. -/
  fillBit : Bool
  /-- `ACT_LED_LEVEL`: the pin level that lights the indicator. -/
  actLedLevel : Bool
  /-- `EP_IN`: the IN endpoint's number. -/
  epIn : Nat
  /-- `EP_OUT`: the drained endpoint's number. -/
  epOut : Nat
deriving DecidableEq, Repr, Inhabited

namespace Config

/-- `N_BITS` (R7): serial bits of one read. -/
def nBits : Nat := 8

/-- `AXIS_NEG` (R7): UP or LEFT, −128. -/
def axisNeg : Byte := 0x80

/-- `AXIS_POS` (R7): DOWN or RIGHT, +127. -/
def axisPos : Byte := 0x7F

/-- `AXIS_ZERO` (R7): neither direction. -/
def axisZero : Byte := 0x00

/-- `BTN_MASK` (R7): the button nibble. -/
def btnMask : Byte := 0x0F

/-- `REPORT_LEN` and `TXBUF_LEN` (R7). -/
def bufLen : Nat := 3

/-- `LATCH_ASSERT` (R7): the level of NES_LATCH when asserted. -/
def latchAssert : Bool := true

/-- `CLK_PULSE` (R7): the level of NES_CLK during a pulse. -/
def clkPulse : Bool := true

/-- The parameters of the machine that comes out of power-on: any value (R7, log 2). -/
opaque params : Params

/-- FREE VALUE (U1, R79): the bit an invalid SAMPLE stores. -/
opaque sampleDraw : Nat → Bool

/-- FREE VALUE (U6, R37): TXBUF after a reset. -/
opaque txbufDraw : Nat → Bytes3

/-- FREE VALUE (U5, R37): the pad's P_LOAD after a reset. -/
opaque pLoadDraw : Nat → Byte

/-- FREE VALUE (U5, R37): the pad's NEDGE after a reset, before R34's saturation at 8. -/
opaque nEdgeDraw : Nat → Nat

/-- FREE VALUE (U4, R37): the buttons held at power-on. -/
opaque btnDraw : Byte

end Config

end Sys2Proof
end

