-- ==== Sys2Proof/Machine/State.lean ====
section
/-! DEFINITION. The block's state as plain data, its stops, and the state after reset (10_state.md R12 to R37). -/

namespace Sys2Proof.Machine

/-- The program counter (R28): the boot step to take next, or the operation's index and the atomic step within it. -/
inductive PC where
  | boot (b : Fin 4)
  | run (idx sub : Nat)
deriving DecidableEq, Repr

/-- The main-loop state (R25); the encoding 0b11 never occurs and is no value of this type. -/
inductive SeqState where
  | idle
  | polling
  | reporting
deriving DecidableEq, Repr

/-- The two line outputs (R33). -/
inductive Line where
  | nesLatch
  | nesClk
deriving DecidableEq, Repr

/-- The events of the history (R48). -/
inductive Event where
  | line (port : Line) (level : Bool) (time : Nat)
  | smp (i : Nibble) (bit valid : Bool)
  | readDone (v : Byte)
  | arm (r : Bytes3)
  | tx (r : Bytes3)
  | drainAck
  | isr
  | reset
deriving DecidableEq, Repr

/-- A pulse on an output port that has no register (R33, R47). ARM_IN and REARM_OUT carry the endpoint re-armed. -/
inductive Pulse where
  | armIn (endpoint : Nat)
  | rearmOut (endpoint : Nat)
  | engInit
  | engEnable
  | txbufW (index : Nat) (data : Byte)
deriving DecidableEq, Repr

/-- The names of the spec's two model faults (R120). -/
inductive FaultName where
  | sampleOverrun
  | sendNotReady
deriving DecidableEq, Repr

/-- A raised fault with the info R120 records: BITCNT for F_SAMPLE_OVERRUN, SEND's sub for F_SEND_NOT_READY. -/
structure FaultRecord where
  name : FaultName
  info : Nat
deriving DecidableEq, Repr

/-- What a refusal records (R120): the word and why it spells no operation, or the out-of-range index. -/
inductive RefusedInput where
  | reservedOp (w : Byte)
  | nonzeroArg (w : Byte)
  | index (i : Nat)
deriving DecidableEq, Repr

/-- The operation sequence the foreground executes (R28, R36): the hardwired [ITER] (R117) or a supplied one. -/
inductive Program where
  | hardwired
  | supplied (words : List Byte)
deriving DecidableEq, Repr

/-- What an engine step does to the ready flag and the IN endpoint (R126). -/
inductive ReadyAct where
  | keep
  | up
  | down
  /-- ENG_READY_E to 0 and, in the same step, EP_IN_BUSY_E to 0: an endpoint reset. -/
  | endpointReset
deriving DecidableEq, Repr

/-- The subset of actions one engine step takes (R124 to R126). -/
structure EngineActs where
  transmit : Bool
  ready : ReadyAct
  outPacket : Bool
deriving DecidableEq, Repr

/-- One agent's turn in the interleaving (R3, R52), with the environment's choice where it makes one (log 1). -/
inductive Turn where
  | foreground
  /-- The buttons change (R34). -/
  | buttons (b : Byte)
  /-- A USB event becomes pending (R123). -/
  | usbEvent
  | engine (a : EngineActs)
  | reset
deriving DecidableEq, Repr

/-- Why the machine stops with a fault. -/
inductive Fault where
  /-- Raised by the step when FAULT holds a fault and only the foreground is left to move: the foreground takes no further
  step (R121). Safe: the spec itself stops there. -/
  | foregroundStopped
  /-- Raised by the step when a supplied sequence has ended, its idx past its last operation (R28). Safe: a final state. -/
  | sequenceEnded
  /-- Raised by a meaning when pc is at boot or its sub is no atomic step of the operation (R28, R30): an ill-formed state that
  no run reaches. Safe: the spec gives such a state no step. -/
  | noSuchStep
deriving DecidableEq, Repr

/-- Why the machine gives an instruction no meaning. -/
inductive Refusal where
  /-- An operation with no meaning in the model yet; no arm of exec answers with it. Safe. -/
  | notModelled (mnemonic : String)
  /-- Raised by the step when REFUSED is set and only the foreground is left to move: the foreground takes no further step (R63).
  Safe: the spec itself stops there. -/
  | wordRefused
deriving DecidableEq, Repr

/-- Everything the spec gives the machine (10_state.md), then the model's own fields. -/
structure State where
  /-- SR (R13). -/
  sr : Byte
  /-- BITCNT (R14). -/
  bitcnt : Nibble
  /-- CUR (R15). -/
  cur : Byte
  /-- REPORT (R16). -/
  report : Bytes3
  /-- RSTATE (R17). -/
  rstate : Byte
  /-- ACT (R18). -/
  act : Bool
  /-- LAST (R19). -/
  last : Byte
  /-- CHG (R20). -/
  chg : Bool
  /-- TXBUF (R21, R42). -/
  txbuf : Bytes3
  /-- RDY_ENG (R22). -/
  rdyEng : Bool
  /-- RDY_EP (R22). -/
  rdyEp : Bool
  /-- IE_USB (R23). -/
  ieUsb : Bool
  /-- CS_SAVE (R24). -/
  csSave : Bool
  /-- SEQ_STATE (R25). -/
  seqState : SeqState
  /-- LATCH_Q (R26). -/
  latchQ : Bool
  /-- CLK_Q (R26). -/
  clkQ : Bool
  /-- FAULT (R27): the faults raised, oldest first; the set of R27 is the set of their names. -/
  faults : List FaultRecord
  /-- REFUSED (R27): set when some input has been refused, with what R120 records of it. -/
  refused : Option RefusedInput
  /-- pc (R28). -/
  pc : PC
  /-- T_LATCH_RISE (R29). -/
  tLatchRise : Nat
  /-- T_CLK_RISE (R29). -/
  tClkRise : Nat
  /-- T_CLK_FALL (R29), none when CLK_Q has not fallen since reset. -/
  tClkFall : Option Nat
  /-- LOAD_OK (R29). -/
  loadOk : Bool
  /-- CLK_OK (R29). -/
  clkOk : Bool
  /-- now (R31). -/
  now : Nat
  /-- HIST (R35), oldest first. -/
  hist : List Event
  /-- ENG_READY_E (R32). -/
  engReady : Bool
  /-- EP_IN_BUSY_E (R32). -/
  epInBusy : Bool
  /-- OUT_PENDING_E (R32). -/
  outPending : Bool
  /-- USB_IRQ_E (R32). -/
  usbIrq : Bool
  /-- BTN (R34). -/
  btn : Byte
  /-- P_LOAD (R34). -/
  pLoad : Byte
  /-- NEDGE (R34). -/
  nEdge : Nat
  /-- The model's own: the pulses on ports that have no register, oldest first (R33, log 13). -/
  pulses : List Pulse
  /-- The model's own: the parameters of R7 (R36, log 2). -/
  params : Params
  /-- The model's own: the operation sequence (R36, R40, log 3). -/
  program : Program
  /-- The model's own: the turns to come; when there is none the foreground moves (R52, log 1). -/
  sched : List Turn
  /-- The model's own: how many draws have been taken (log 6). -/
  draws : Nat
deriving DecidableEq, Repr

/-- The machine right after the power-on reset (R37, R137), before boot step 0. -/
def State.reset : State where
  sr := 0
  bitcnt := 0
  cur := 0
  report := ⟨0, 0, 0⟩
  rstate := 0
  act := false
  last := 0
  chg := false
  txbuf := Config.txbufDraw 0
  rdyEng := false
  rdyEp := false
  ieUsb := false
  csSave := false
  seqState := .idle
  latchQ := false
  clkQ := false
  faults := []
  refused := none
  pc := .boot 0
  tLatchRise := 0
  tClkRise := 0
  tClkFall := none
  loadOk := false
  clkOk := false
  now := 0
  hist := [.reset]
  engReady := false
  epInBusy := false
  outPending := false
  usbIrq := false
  btn := Config.btnDraw
  pLoad := Config.pLoadDraw 0
  nEdge := min (Config.nEdgeDraw 0) 8
  pulses := []
  params := Config.params
  program := .hardwired
  sched := []
  draws := 1

end Sys2Proof.Machine
end

