-- ==== Sys2Proof/Machine/Operands.lean ====
section
/-! DEFINITION. What an operation reads and how a value is laid out: single bits, DATA's polarity, the ports and their levels,
and the views of a report (R33, R43 to R46, R70, R78). -/

namespace Sys2Proof.Machine

/-- `v[i]`: bit i of a byte (R8). -/
def getBit (v : Byte) (i : Nat) : Bool := v.getLsbD i

/-- `v[i] <- b`: one bit of a byte written and no other (R9). -/
def setBit (v : Byte) (i : Nat) (b : Bool) : Byte :=
  if b then v ||| ((1 : Byte) <<< i) else v &&& ~~~((1 : Byte) <<< i)

/-- `enc(b)`: the electrical level of bit b on NES_DATA (R70). -/
def encLevel (p : Polarity) (b : Bool) : Bool :=
  match p with
  | .activeLow => !b
  | .activeHigh => b

/-- `dec(l) = enc(l)`: polarity is its own inverse (R70). -/
def decLevel (p : Polarity) (l : Bool) : Bool := encLevel p l

/-- The pad's output on NES_DATA (R78). -/
def padLevel (s : State) : Bool :=
  if !s.params.padPresent then s.params.absentLevel
  else if s.latchQ then encLevel s.params.dataPolarity (getBit s.btn 0)
  else if s.nEdge < 8 then encLevel s.params.dataPolarity (getBit s.pLoad s.nEdge)
  else encLevel s.params.dataPolarity s.params.fillBit

/-- The input ports (R33); RST is the reset turn. -/
inductive InPort where
  | nesData
  | engReady
  | epInReady
  | outPending
  | usbIrq
deriving DecidableEq, Repr

/-- `Sample(PORT)`: the present level of an input port, with no side effect (R9, R32, R33, R50). -/
def samplePort (p : InPort) (s : State) : Bool :=
  match p with
  | .nesData => padLevel s
  | .engReady => s.engReady
  | .epInReady => s.engReady && !s.epInBusy
  | .outPending => s.outPending
  | .usbIrq => s.usbIrq

/-- The output ports that hold a level (R33). -/
inductive OutPort where
  | nesLatch
  | nesClk
  | actLed
  | usbIe
deriving DecidableEq, Repr

/-- The level an output port is driven at: its register's, and ACT_LED's by ACT_LED_LEVEL (R33, R95). -/
def outLevel (p : OutPort) (s : State) : Bool :=
  match p with
  | .nesLatch => if s.latchQ then Config.latchAssert else !Config.latchAssert
  | .nesClk => if s.clkQ then Config.clkPulse else !Config.clkPulse
  | .actLed => if s.act then s.params.actLedLevel else !s.params.actLedLevel
  | .usbIe => s.ieUsb

/-- The packed view REPORT24, byte 0 least significant (R45). -/
def report24 (r : Bytes3) : BitVec 24 := r.b2 ++ r.b1 ++ r.b0

/-- `s8(v)`: a byte read as two's complement (R8, R68). -/
def s8 (v : Byte) : Int := v.toInt

/-- The encoding of SEQ_STATE (R25). -/
def seqCode : SeqState → BitVec 2
  | .idle => 0b00
  | .polling => 0b01
  | .reporting => 0b10

/-- The code of a fault (R120). -/
def faultCode : FaultName → Nat
  | .sampleOverrun => 1
  | .sendNotReady => 2

/-- Whether FAULT, as a set of names, holds a name (R27). -/
def faulted (n : FaultName) (s : State) : Bool := s.faults.any (fun r => r.name == n)

/-- The words of an operation sequence (R28, R73, R117). -/
def programWords : Program → List Byte
  | .hardwired => [0xE0]
  | .supplied ws => ws

end Sys2Proof.Machine
end

