-- ==== Sys2Proof/Machine/Flags.lean ====
section
/-! DEFINITION. Every 1-bit result an operation computes: LOAD_OK, CLK_OK, sample validity, CHG, ACT (R79 to R83, R95, R97). -/

namespace Sys2Proof.Machine

/-- LOAD_OK at a latch fall: the latch was high for at least W_LATCH units (R81, R139). -/
def latchHeld (s : State) : Bool := decide (s.tLatchRise + s.params.wLatch ≤ s.now)

/-- The clock has been high for at least W_CLKH units (R79, R83, R140). -/
def clockHeld (s : State) : Bool := decide (s.tClkRise + s.params.wClkh ≤ s.now)

/-- The clock has been low for less than W_CLKL units since it last fell; never so before its first fall (R82, R141). -/
def lowTooShort (s : State) : Bool :=
  match s.tClkFall with
  | none => false
  | some f => decide (s.now < f + s.params.wClkl)

/-- Whether a SAMPLE is valid (R79). -/
def sampleValid (s : State) : Bool :=
  !s.latchQ && s.loadOk && (if s.clkQ then clockHeld s else s.clkOk)

/-- CHG: the current state differs from the last reported one in some bit (R97). -/
def changed (cur last : Byte) : Bool := cur != last

/-- ACT: the encoded state is non-zero (R95). -/
def active (v : Byte) : Bool := v != 0

end Sys2Proof.Machine
end

