-- ==== Sys2Proof/Machine/Ops.lean ====
section
/-! DEFINITION. The named operations over the state: events, pulses, byte access, the pad's moves, faults and refusals,
and how an operation's atomic step ends (R9, R30, R47, R48, R74, R121). -/

namespace Sys2Proof.Machine

/-- `emit E(args)` (R9, R48): append an event to the history. -/
def emit (e : Event) (s : State) : State := { s with hist := s.hist ++ [e] }

/-- Pulse an output port that has no register (R33, R47). -/
def pulse (p : Pulse) (s : State) : State := { s with pulses := s.pulses ++ [p] }

/-- `advance(n)` (R9): let n time units pass; only WAIT does (R31). -/
def advance (n : Nat) (s : State) : State := { s with now := s.now + n }

/-- Set the pc (R9, R28). -/
def setPc (p : PC) (s : State) : State := { s with pc := p }

/-- Pad capture (R76): the latch falls, so a present pad captures its buttons. -/
def padCapture (s : State) : State :=
  if s.params.padPresent then { s with pLoad := s.btn, nEdge := 0 } else s

/-- Pad shift (R77): the clock rises with the latch low, so a present pad shifts once, saturating at 8. -/
def padShift (s : State) : State :=
  if s.params.padPresent && !s.latchQ then { s with nEdge := min (s.nEdge + 1) 8 } else s

/-- Why an atomic step ends without its effect: a model fault (R120, R121) or a refused index (R47, R63). -/
inductive Halt where
  | fault (r : FaultRecord)
  | refuse (x : RefusedInput)
deriving DecidableEq, Repr

/-- `raise Fault(name, info)` (R9, R121): FAULT gains the fault and nothing else is written. Nothing removes one (R27). -/
def raiseFault (r : FaultRecord) (s : State) : State := { s with faults := s.faults ++ [r] }

/-- REFUSED ← 1 with the input refused (R63, R120); once set it stays as it was (R27). -/
def refuseInput (x : RefusedInput) (s : State) : State :=
  match s.refused with
  | none => { s with refused := some x }
  | some _ => s

/-- Record what ended the step; no other state changes (R63, R121). -/
def recordHalt (h : Halt) (s : State) : State :=
  match h with
  | .fault r => raiseFault r s
  | .refuse x => refuseInput x s

/-- Byte i of a 3-byte space; an index outside 0 to 2 is refused (R9, R39, R47). -/
def readByte (b : Bytes3) (i : Nat) : Except Halt Byte :=
  match i with
  | 0 => .ok b.b0
  | 1 => .ok b.b1
  | 2 => .ok b.b2
  | _ => .error (.refuse (.index i))

/-- `b` with byte i replaced; an index outside 0 to 2 is refused (R9, R39, R47). -/
def writeByte (b : Bytes3) (i : Nat) (v : Byte) : Except Halt Bytes3 :=
  match i with
  | 0 => .ok { b with b0 := v }
  | 1 => .ok { b with b1 := v }
  | 2 => .ok { b with b2 := v }
  | _ => .error (.refuse (.index i))

/-- `MemWrite(TXBUF, i, 1, v)` (R9, R42), with its strobe on port TXBUF_W (R33). -/
def writeTxbuf (i : Nat) (v : Byte) (s : State) : Except Halt State :=
  match writeByte s.txbuf i v with
  | .ok b => .ok (pulse (.txbufW i v) { s with txbuf := b })
  | .error h => .error h

/-- How an atomic step ends: its effect and the next pc (R74), or what halted it and nothing else (R63, R121). -/
def settle (r : Except Halt State) (next : PC) (s : State) : Host.Outcome State Fault Refusal :=
  match r with
  | .ok t => .next (setPc next t)
  | .error h => .next (recordHalt h s)

/-- An operation of one atomic step: sub 0 and no other, and then idx + 1 (R30, R74). -/
def single (r : Except Halt State) (s : State) : Host.Outcome State Fault Refusal :=
  match s.pc with
  | .run idx 0 => settle r (.run (idx + 1) 0) s
  | .run _ (_ + 1) => .fault .noSuchStep
  | .boot _ => .fault .noSuchStep

/-- An operation of several atomic steps: step number sub of the plan runs; after the last one the pc is `finish idx`
(R28, R30, R86, R103, R113). -/
def runPlan {α : Type} (run : α → State → Except Halt State) (plan : List α) (finish : Nat → PC) (s : State) :
    Host.Outcome State Fault Refusal :=
  match s.pc with
  | .boot _ => .fault .noSuchStep
  | .run idx sub =>
    match plan.drop sub with
    | [] => .fault .noSuchStep
    | a :: rest => settle (run a s) (if rest.isEmpty then finish idx else .run idx (sub + 1)) s

end Sys2Proof.Machine
end

