-- ==== Sys2Proof/Machine/ChangeDetector.lean ====
section
/-! DEFINITION. The Change Detector and the last-reported latch (42_change_detector.md R97, R98). -/

namespace Sys2Proof.Machine

/-- CMP's effect (R97). -/
def cmpEffect (s : State) : State := { s with chg := changed s.cur s.last }

/-- COMMIT's effect, unconditional (R98). -/
def commitEffect (s : State) : State := { s with last := s.rstate }

/-- CMP (R97). -/
def execCmp (s : State) : Host.Outcome State Fault Refusal := single (.ok (cmpEffect s)) s

/-- COMMIT (R98). -/
def execCommit (s : State) : Host.Outcome State Fault Refusal := single (.ok (commitEffect s)) s

end Sys2Proof.Machine
end

