-- ==== Sys2Proof/Machine/ControllerLink.lean ====
section
/-! DEFINITION. The Controller Link's line operations (40_controller_link.md R80 to R85). -/

namespace Sys2Proof.Machine

/-- LATCH_HI's effect (R80). -/
def latchHiEffect (s : State) : State :=
  emit (.line .nesLatch true s.now)
    { s with
      tLatchRise := if s.latchQ then s.tLatchRise else s.now
      latchQ := true
      loadOk := false
      sr := 0
      bitcnt := 0 }

/-- What a latch fall does before the line is low: LOAD_OK, CLK_OK and the pad's capture (R76, R81). -/
def latchFall (s : State) : State :=
  if s.latchQ then padCapture { s with loadOk := latchHeld s, clkOk := true } else s

/-- LATCH_LO's effect (R81). -/
def latchLoEffect (s : State) : State :=
  emit (.line .nesLatch false s.now) { latchFall s with latchQ := false }

/-- What a clock rise does: the low-time check, the stamp, CLK_OK and the pad's shift (R77, R82). -/
def clkRise (s : State) : State :=
  if s.clkQ then s
  else
    padShift
      { s with
        loadOk := if lowTooShort s then false else s.loadOk
        tClkRise := s.now
        clkOk := false }

/-- CLK_HI's effect (R82). -/
def clkHiEffect (s : State) : State :=
  emit (.line .nesClk true s.now) { clkRise s with clkQ := true }

/-- What a clock fall does: CLK_OK and the stamp (R83). -/
def clkFall (s : State) : State :=
  if s.clkQ then { s with clkOk := clockHeld s, tClkFall := some s.now } else s

/-- CLK_LO's effect (R83). -/
def clkLoEffect (s : State) : State :=
  emit (.line .nesClk false s.now) { clkFall s with clkQ := false }

/-- The bit a SAMPLE stores: the decoded level when valid, else a free value (R79, U1). -/
def sampledBit (s : State) : Bool :=
  if sampleValid s then decLevel s.params.dataPolarity (samplePort .nesData s) else Config.sampleDraw s.draws

/-- SAMPLE's effect (R84). A BITCNT above 8, which never occurs (R14), faults as 8 does (log 14). -/
def sampleEffect (s : State) : Except Halt State :=
  if 8 ≤ s.bitcnt.toNat then .error (.fault ⟨.sampleOverrun, s.bitcnt.toNat⟩)
  else
    let bit := sampledBit s
    let sr := setBit s.sr s.bitcnt.toNat bit
    let t := emit (.smp s.bitcnt bit (sampleValid s))
      { s with
        sr := sr
        bitcnt := s.bitcnt + 1
        draws := if sampleValid s then s.draws else s.draws + 1 }
    .ok (if s.bitcnt = 7 then emit (.readDone sr) { t with cur := sr } else t)

/-- LATCH_HI (R80). -/
def execLatchHi (s : State) : Host.Outcome State Fault Refusal := single (.ok (latchHiEffect s)) s

/-- LATCH_LO (R81). -/
def execLatchLo (s : State) : Host.Outcome State Fault Refusal := single (.ok (latchLoEffect s)) s

/-- CLK_HI (R82). -/
def execClkHi (s : State) : Host.Outcome State Fault Refusal := single (.ok (clkHiEffect s)) s

/-- CLK_LO (R83). -/
def execClkLo (s : State) : Host.Outcome State Fault Refusal := single (.ok (clkLoEffect s)) s

/-- SAMPLE (R84). -/
def execSample (s : State) : Host.Outcome State Fault Refusal := single (sampleEffect s) s

/-- WAIT t (R85). -/
def execWait (t : Nat) (s : State) : Host.Outcome State Fault Refusal := single (.ok (advance t s)) s

end Sys2Proof.Machine
end

