-- ==== Sys2Proof/Machine/ReportEncoder.lean ====
section
/-! DEFINITION. The Report Encoder (41_report_encoder.md R91 to R95). -/

namespace Sys2Proof.Machine

/-- The Y axis byte: UP over DOWN (R92). -/
def yAxis (v : Byte) : Byte :=
  if getBit v 4 then Config.axisNeg else if getBit v 5 then Config.axisPos else Config.axisZero

/-- The X axis byte: LEFT over RIGHT (R93). -/
def xAxis (v : Byte) : Byte :=
  if getBit v 6 then Config.axisNeg else if getBit v 7 then Config.axisPos else Config.axisZero

/-- The button byte (R94). -/
def buttonByte (v : Byte) : Byte := v &&& Config.btnMask

/-- The report of a ButtonState: zeroed first, then populated when something is pressed (R91). -/
def reportOf (v : Byte) : Bytes3 :=
  if active v then ⟨xAxis v, yAxis v, buttonByte v⟩ else ⟨0, 0, 0⟩

/-- ENCODE's effect (R91, R95). -/
def encodeEffect (s : State) : State :=
  { s with report := reportOf s.cur, rstate := s.cur, act := active s.cur }

/-- ENCODE (R91). -/
def execEncode (s : State) : Host.Outcome State Fault Refusal := single (.ok (encodeEffect s)) s

end Sys2Proof.Machine
end

