-- ==== Sys2Proof/Machine/TransportAdapter.lean ====
section
/-! DEFINITION. The Transport Adapter hand-off port (43_transport_adapter.md R101 to R108): CHKRDY, DRAIN and the
effects of SEND's six atomic steps. -/

namespace Sys2Proof.Machine

/-- CHKRDY's effect: both flags sampled in one atomic step (R101). -/
def chkrdyEffect (s : State) : State :=
  { s with rdyEng := samplePort .engReady s, rdyEp := samplePort .epInReady s }

/-- DRAIN's effect (R102). -/
def drainEffect (s : State) : State :=
  if samplePort .outPending s then
    emit .drainAck { pulse (.rearmOut s.params.epOut) s with outPending := false }
  else s

/-- SEND sub 0: readiness check and critical-section entry (R104). -/
def sendEnter (s : State) : Except Halt State :=
  if samplePort .epInReady s then .ok { s with csSave := s.ieUsb, ieUsb := false }
  else .error (.fault ⟨.sendNotReady, 0⟩)

/-- SEND sub k + 1: copy byte k (R105). -/
def sendCopy (k : Nat) (s : State) : Except Halt State :=
  match readByte s.report k with
  | .ok v => writeTxbuf k v s
  | .error h => .error h

/-- SEND sub 4: critical-section exit (R106). -/
def sendExit (s : State) : State := { s with ieUsb := s.csSave }

/-- SEND sub 5: check again and arm (R107). -/
def sendArm (s : State) : Except Halt State :=
  if samplePort .epInReady s then
    .ok (emit (.arm s.txbuf) { pulse (.armIn s.params.epIn) s with epInBusy := true })
  else .error (.fault ⟨.sendNotReady, 5⟩)

/-- CHKRDY (R101). -/
def execChkrdy (s : State) : Host.Outcome State Fault Refusal := single (.ok (chkrdyEffect s)) s

/-- DRAIN (R102). -/
def execDrain (s : State) : Host.Outcome State Fault Refusal := single (.ok (drainEffect s)) s

end Sys2Proof.Machine
end

