-- ==== Sys2Proof/Machine/Atomic.lean ====
section
/-! DEFINITION. The atomic steps of READ, SEND and ITER, and the plans that order them (R66, R86, R103, R113). -/

namespace Sys2Proof.Machine

/-- One atomic step of a composite operation (R30). -/
inductive AtomicStep where
  | latchHi
  | latchLo
  | clkHi
  | clkLo
  | sample
  | wait (t : Nat)
  | chkrdy
  /-- ITER's second step: DRAIN when RDY_ENG, and Idle to Polling (R113). -/
  | drainAndPoll
  /-- CMP, and Polling to Reporting when CHG (R113, R115). -/
  | compare
  | encode
  | sendEnter
  | sendCopy (k : Nat)
  | sendExit
  | sendArm
  /-- COMMIT, and Reporting to Idle (R113, R116). -/
  | commitAndIdle
  /-- Polling to Idle (R113). -/
  | idle
deriving DecidableEq, Repr

/-- ITER's second step (R113, R114). -/
def drainAndPoll (s : State) : State :=
  { (if s.rdyEng then drainEffect s else s) with seqState := .polling }

/-- ITER's compare step (R113, R115). -/
def compareAndBranch (s : State) : State :=
  if (cmpEffect s).chg then { cmpEffect s with seqState := .reporting } else cmpEffect s

/-- What one atomic step does. -/
def runAtomic (a : AtomicStep) (s : State) : Except Halt State :=
  match a with
  | .latchHi => .ok (latchHiEffect s)
  | .latchLo => .ok (latchLoEffect s)
  | .clkHi => .ok (clkHiEffect s)
  | .clkLo => .ok (clkLoEffect s)
  | .sample => sampleEffect s
  | .wait t => .ok (advance t s)
  | .chkrdy => .ok (chkrdyEffect s)
  | .drainAndPoll => .ok (drainAndPoll s)
  | .compare => .ok (compareAndBranch s)
  | .encode => .ok (encodeEffect s)
  | .sendEnter => Sys2Proof.Machine.sendEnter s
  | .sendCopy k => Sys2Proof.Machine.sendCopy k s
  | .sendExit => .ok (Sys2Proof.Machine.sendExit s)
  | .sendArm => Sys2Proof.Machine.sendArm s
  | .commitAndIdle => .ok { commitEffect s with seqState := .idle }
  | .idle => .ok { s with seqState := .idle }

/-- `DELAY n` (R66): WAIT 15 ⌊n/15⌋ times, then WAIT (n mod 15) unless that is 0. -/
def delayCounts (n : Nat) : List Nat :=
  List.replicate (n / 15) 15 ++ (if n % 15 = 0 then [] else [n % 15])

/-- `DELAY n` as atomic steps. -/
def delayPlan (n : Nat) : List AtomicStep := (delayCounts n).map .wait

/-- READ's steps for one bit (R86). -/
def bitPlan (p : Params) : List AtomicStep :=
  [.sample, .clkHi] ++ delayPlan p.wClkh ++ [.clkLo] ++ delayPlan p.wClkl

/-- READ's atomic steps (R86). -/
def readPlan (p : Params) : List AtomicStep :=
  .latchHi :: (delayPlan p.wLatch ++ .latchLo :: (List.replicate Config.nBits (bitPlan p)).flatten)

/-- SEND's six atomic steps (R103). -/
def sendPlan : List AtomicStep :=
  [.sendEnter, .sendCopy 0, .sendCopy 1, .sendCopy 2, .sendExit, .sendArm]

/-- ITER's steps after its compare (R113, R115, R116). -/
def reportPlan (chg : Bool) : List AtomicStep :=
  if chg then .encode :: (sendPlan ++ [.commitAndIdle]) else [.idle]

/-- ITER's atomic steps. RDY_ENG and RDY_EP matter from its third step on and CHG after its compare, when this
iteration has written them (R113, R114). -/
def iterPlan (p : Params) (ready chg : Bool) : List AtomicStep :=
  .chkrdy :: .drainAndPoll :: (if ready then readPlan p ++ .compare :: reportPlan chg else [.idle])

end Sys2Proof.Machine
end

