-- ==== Sys2Proof/Machine/Sequencer.lean ====
section
/-! DEFINITION. NOP and the composite operations READ, SEND and ITER, one atomic step at a time (R86, R103, R111, R113). -/

namespace Sys2Proof.Machine

/-- NOP (R111). -/
def execNop (s : State) : Host.Outcome State Fault Refusal := single (.ok s) s

/-- After an operation's last step the next operation begins (R74). -/
def nextOperation (idx : Nat) : PC := .run (idx + 1) 0

/-- READ (R86): its step number pc.sub. -/
def execRead (s : State) : Host.Outcome State Fault Refusal :=
  runPlan runAtomic (readPlan s.params) nextOperation s

/-- SEND (R103): its step number pc.sub. -/
def execSend (s : State) : Host.Outcome State Fault Refusal :=
  runPlan runAtomic sendPlan nextOperation s

/-- ITER's finish: back to (0, 0) in the hardwired program, else the next operation (R113, R117). -/
def iterFinish (p : Program) (idx : Nat) : PC :=
  match p with
  | .hardwired => .run 0 0
  | .supplied _ => .run (idx + 1) 0

/-- ITER (R113): its step number pc.sub. -/
def execIter (s : State) : Host.Outcome State Fault Refusal :=
  runPlan runAtomic (iterPlan s.params (s.rdyEng && s.rdyEp) s.chg) (iterFinish s.program) s

end Sys2Proof.Machine
end

