-- ==== Sys2Proof/Machine/Dispatch.lean ====
section
/-! DEFINITION. One arm per operation, each one direct call of its meaning: the atomic step at pc.sub (R30). -/

namespace Sys2Proof.Machine

def exec (i : Instr) (s : State) : Host.Outcome State Fault Refusal :=
  match i with
  | .nop => Sys2Proof.Machine.execNop s
  | .latchHi => Sys2Proof.Machine.execLatchHi s
  | .latchLo => Sys2Proof.Machine.execLatchLo s
  | .clkHi => Sys2Proof.Machine.execClkHi s
  | .clkLo => Sys2Proof.Machine.execClkLo s
  | .sample => Sys2Proof.Machine.execSample s
  | .wait t => Sys2Proof.Machine.execWait t s
  | .read => Sys2Proof.Machine.execRead s
  | .chkrdy => Sys2Proof.Machine.execChkrdy s
  | .drain => Sys2Proof.Machine.execDrain s
  | .cmp => Sys2Proof.Machine.execCmp s
  | .encode => Sys2Proof.Machine.execEncode s
  | .send => Sys2Proof.Machine.execSend s
  | .commit => Sys2Proof.Machine.execCommit s
  | .iter => Sys2Proof.Machine.execIter s

end Sys2Proof.Machine
end

