-- ==== Sys2Proof/Machine/Engine.lean ====
section
/-! DEFINITION. The engine agent's step: the USB interrupt's entry, its work and its return in one atomic step
(60_exceptions.md R122 to R128). -/

namespace Sys2Proof.Machine

/-- The engine step is enabled (R123, R124). -/
def engineEnabled (s : State) : Bool := s.ieUsb && s.usbIrq

/-- The transmit action: it needs an outstanding arm (R125). -/
def engineTransmit (s : State) : State :=
  if s.epInBusy then emit (.tx s.txbuf) { s with epInBusy := false } else s

/-- The ready flag and the endpoint reset (R126). -/
def engineReadyAct (a : ReadyAct) (s : State) : State :=
  match a with
  | .keep => s
  | .up => { s with engReady := true }
  | .down => { s with engReady := false }
  | .endpointReset => { s with engReady := false, epInBusy := false }

/-- A host packet arrives at EP_OUT (R126). -/
def engineOutPacket (s : State) : State := { s with outPending := true }

/-- The engine agent's step with the actions chosen (R124 to R126): ISR, the actions, USB_IRQ_E cleared. Nothing is
saved or restored (R127, R128). -/
def engineWork (a : EngineActs) (s : State) : State :=
  let s1 := emit .isr s
  let s2 := if a.transmit then engineTransmit s1 else s1
  let s3 := engineReadyAct a.ready s2
  let s4 := if a.outPacket then engineOutPacket s3 else s3
  { s4 with usbIrq := false }

/-- The engine's turn: its step when enabled; otherwise a masked event stays pending and nothing changes (R23, R123). -/
def engineTurn (a : EngineActs) (s : State) : State :=
  if engineEnabled s then engineWork a s else s

end Sys2Proof.Machine
end

