-- ==== Sys2Proof/Machine/Reset.lean ====
section
/-! DEFINITION. A reset after power-on, and the four boot steps that follow every reset (70_reset_and_hazards.md R136 to R138). -/

namespace Sys2Proof.Machine

/-- A later reset (R137): every element at its reset value but FAULT, REFUSED and HIST, which are kept, TXBUF a draw.
The pad's captured state is a draw (R37, U5), the buttons are the environment's (R34); the model's own fields stay. -/
def resetStep (s : State) : State :=
  emit .reset
    { State.reset with
      txbuf := Config.txbufDraw s.draws
      pLoad := Config.pLoadDraw s.draws
      nEdge := min (Config.nEdgeDraw s.draws) 8
      btn := s.btn
      faults := s.faults
      refused := s.refused
      hist := s.hist
      pulses := s.pulses
      params := s.params
      program := s.program
      sched := s.sched
      draws := s.draws + 1 }

/-- Boot 0: the lines at rest and the indicator not lit (R138); a port's level is its register's (R33, log 11). -/
def bootLines (s : State) : State :=
  { latchFall s with latchQ := false, clkQ := false, act := false }

/-- One boot step (R138). After boot 3 the hardwired program starts (R73, R117). -/
def bootStep (b : Fin 4) (s : State) : State :=
  match b with
  | 0 => setPc (.boot 1) (bootLines s)
  | 1 => setPc (.boot 2) (pulse .engInit s)
  | 2 => setPc (.boot 3) (pulse .engEnable s)
  | 3 => setPc (.run 0 0) { s with ieUsb := true, program := .hardwired }

end Sys2Proof.Machine
end

