-- ==== Sys2Proof/Machine/Schedule.lean ====
section
/-! DEFINITION. Fetching an operation word, the foreground's step, and one turn of the interleaving (R28, R52, R63, R121, R129). -/

namespace Sys2Proof.Machine

/-- The operation word at pc.idx; none in boot and past the sequence's end (R28). -/
def fetch (s : State) : Option Byte :=
  match s.pc with
  | .boot _ => none
  | .run idx _ => (programWords s.program)[idx]?

/-- What a word that spells no operation records (R120). -/
def refusedWord (w : Byte) : DecodeError → RefusedInput
  | .reservedOp => .reservedOp w
  | .nonzeroArg => .nonzeroArg w

/-- The foreground decodes and runs one word: the operation's atomic step, or REFUSED and nothing else (R62, R63). -/
def runWord (w : Byte) (s : State) : Host.Outcome State Fault Refusal :=
  match decode w with
  | .ok i => exec i s
  | .error e => .next (refuseInput (refusedWord w e) s)

/-- One atomic step of the foreground: a boot step (R138), else a step of the operation at pc. With a fault or a refusal
recorded it takes none (R63, R121), and a supplied sequence ends after its last operation (R28). -/
def foreground (s : State) : Host.Outcome State Fault Refusal :=
  match s.pc with
  | .boot b => .next (bootStep b s)
  | .run _ _ =>
    if s.faults ≠ [] then .fault .foregroundStopped
    else if s.refused ≠ none then .refused .wordRefused
    else
      match fetch s with
      | none => .fault .sequenceEnded
      | some w => runWord w s

/-- Whether the foreground has a step to take (R28, R63, R121). -/
def foregroundReady (s : State) : Bool :=
  match s.pc with
  | .boot _ => true
  | .run _ _ => s.faults.isEmpty && s.refused.isNone && (fetch s).isSome

/-- One agent's turn. An agent that has no step to take lets its turn pass (R52, R121, R123). -/
def takeTurn (t : Turn) (s : State) : Host.Outcome State Fault Refusal :=
  match t with
  | .foreground => if foregroundReady s then foreground s else .next s
  | .buttons b => .next { s with btn := b }
  | .usbEvent => .next { s with usbIrq := true }
  | .engine a => .next (engineTurn a s)
  | .reset => .next (resetStep s)

/-- One step of the machine: the next turn of the schedule, or the foreground's when none is left (log 1). -/
def nextStep (s : State) : Host.Outcome State Fault Refusal :=
  match s.sched with
  | [] => foreground s
  | t :: rest => takeTurn t { s with sched := rest }

/-- Load the one-word supplied sequence w and stand at its start, free to step, with no other agent's turn before it. -/
def loadWord (w : Byte) (s : State) : State :=
  { s with program := .supplied [w], pc := .run 0 0, sched := [], faults := [], refused := none }

end Sys2Proof.Machine
end

