-- ==== Sys2Proof/Machine/Step.lean ====
section
/-! DEFINITION. The machine's one step, and how a word is placed where the next step runs it. -/

namespace Sys2Proof.Machine

/-- One atomic step of one agent (R52). -/
def step (s : State) : Host.Outcome State Fault Refusal := nextStep s

/-- s with the operation word whose bits are w standing where the very next step runs it (log 3). -/
def State.withFetchWord (s : State) (nbits w : Nat) : State := loadWord (tableWord nbits w) s

end Sys2Proof.Machine
end

