-- ==== Sys2Proof/Machine/Assembler.lean ====
section
/-! DEFINITION. The assembler: the pseudo-instructions of R66 and the line syntax of R65. -/

namespace Sys2Proof.Machine

/-- A line's content: an operation or a pseudo-instruction (R65, R66). -/
inductive AsmOp where
  | op (i : Instr)
  | strobe (n : Nat)
  | pulse (n : Nat)
  | delay (n : Nat)
  | bit
deriving DecidableEq, Repr

/-- `DELAY n` as operations (R66). -/
def delayOps (n : Nat) : List Instr := (delayCounts n).map .wait

/-- `PULSE n` as operations (R66). -/
def pulseOps (n : Nat) : List Instr := [.clkHi, .wait n, .clkLo]

/-- The operations a line stands for; none where a count is out of range (R61, R66). BIT's PULSE takes W_CLKH, so it needs W_CLKH ≤ 15. -/
def expand (p : Params) : AsmOp → Option (List Instr)
  | .op i => if wellFormed i then some [i] else none
  | .strobe n => if n ≤ 15 then some [.latchHi, .wait n, .latchLo] else none
  | .pulse n => if n ≤ 15 then some (pulseOps n) else none
  | .delay n => some (delayOps n)
  | .bit => if p.wClkh ≤ 15 then some (.sample :: (pulseOps p.wClkh ++ delayOps p.wClkl)) else none

/-- The words of a list of lines, in line order (R65). -/
def assemble (p : Params) : List AsmOp → Option (List Byte)
  | [] => some []
  | a :: rest =>
    match expand p a, assemble p rest with
    | some is, some ws => some (is.map Sys2Proof.encode ++ ws)
    | _, _ => none

/-- A decimal digit's value. -/
def decDigit (c : Char) : Option Nat :=
  if '0' ≤ c ∧ c ≤ '9' then some (c.toNat - 48) else none

/-- A hexadecimal digit's value. -/
def hexDigit (c : Char) : Option Nat :=
  if '0' ≤ c ∧ c ≤ '9' then some (c.toNat - 48)
  else if 'A' ≤ c ∧ c ≤ 'F' then some (c.toNat - 55)
  else if 'a' ≤ c ∧ c ≤ 'f' then some (c.toNat - 87)
  else none

/-- The number a list of digits spells in a base, most significant first. -/
def digitsValue (base : Nat) (digit : Char → Option Nat) : Nat → List Char → Option Nat
  | acc, [] => some acc
  | acc, c :: cs =>
    match digit c with
    | some d => digitsValue base digit (acc * base + d) cs
    | none => none

/-- A count in decimal or, after 0x, hexadecimal (R65). -/
def asmNumber : List Char → Option Nat
  | [] => none
  | '0' :: 'x' :: c :: cs => digitsValue 16 hexDigit 0 (c :: cs)
  | c :: cs => digitsValue 10 decDigit 0 (c :: cs)

/-- Split at blanks; no empty token is kept. -/
def asmTokens : List Char → List Char → List (List Char)
  | acc, [] => if acc.isEmpty then [] else [acc.reverse]
  | acc, c :: cs =>
    if c = ' ' ∨ c = '\t' then (if acc.isEmpty then [] else [acc.reverse]) ++ asmTokens [] cs
    else asmTokens (c :: acc) cs

/-- The mnemonics that stand alone on their line (R60, R66). -/
def plainMnemonics : List (List Char × AsmOp) :=
  [(['N', 'O', 'P'], .op .nop), (['L', 'A', 'T', 'C', 'H', '_', 'H', 'I'], .op .latchHi),
   (['L', 'A', 'T', 'C', 'H', '_', 'L', 'O'], .op .latchLo), (['C', 'L', 'K', '_', 'H', 'I'], .op .clkHi),
   (['C', 'L', 'K', '_', 'L', 'O'], .op .clkLo), (['S', 'A', 'M', 'P', 'L', 'E'], .op .sample),
   (['R', 'E', 'A', 'D'], .op .read), (['C', 'H', 'K', 'R', 'D', 'Y'], .op .chkrdy),
   (['D', 'R', 'A', 'I', 'N'], .op .drain), (['C', 'M', 'P'], .op .cmp),
   (['E', 'N', 'C', 'O', 'D', 'E'], .op .encode), (['S', 'E', 'N', 'D'], .op .send),
   (['C', 'O', 'M', 'M', 'I', 'T'], .op .commit), (['I', 'T', 'E', 'R'], .op .iter), (['B', 'I', 'T'], .bit)]

/-- The operation of a line with a count (R60, R66). -/
def countMnemonic (m : List Char) (n : Nat) : Option AsmOp :=
  if m = ['W', 'A', 'I', 'T'] then some (.op (.wait n))
  else if m = ['S', 'T', 'R', 'O', 'B', 'E'] then some (.strobe n)
  else if m = ['P', 'U', 'L', 'S', 'E'] then some (.pulse n)
  else if m = ['D', 'E', 'L', 'A', 'Y'] then some (.delay n)
  else none

/-- A label token: an identifier followed by a colon (R65). -/
def isLabel (t : List Char) : Bool :=
  match t.reverse with
  | ':' :: c :: cs => (c :: cs).all (fun d => d.isAlphanum || d = '_') && !(t.head?.any Char.isDigit)
  | _ => false

/-- The operations of a line's tokens: at most one; a label stands first and nothing takes it as an operand (R65). -/
def parseTokens : List (List Char) → Option (List AsmOp)
  | [] => some []
  | t :: rest =>
    match (if isLabel t then rest else t :: rest) with
    | [] => some []
    | [m] => (plainMnemonics.lookup m).map ([·])
    | [m, n] => ((asmNumber n).bind (countMnemonic m)).map ([·])
    | _ => none

/-- One line of assembly: a comment runs from a semicolon to the line's end (R65). -/
def parseLine (l : List Char) : Option (List AsmOp) :=
  parseTokens (asmTokens [] (l.takeWhile (· ≠ ';')))

/-- The words a text of assembly lines emits, in line order (R65). -/
def assembleLines (p : Params) : List (List Char) → Option (List Byte)
  | [] => some []
  | l :: rest =>
    match parseLine l, assembleLines p rest with
    | some ops, some ws => (assemble p ops).map (· ++ ws)
    | _, _ => none

end Sys2Proof.Machine
end

