-- ==== Sys2Proof/Safety.lean ====
section
/-! DEFINITION. What counts as a safe state, and the notions and invariants the claims are stated with
(R14, R29, R34, R49, R53, R95, R99, R109, R121). -/

namespace Sys2Proof

open Sys2Proof.Machine

/-- No fault and no refusal is recorded (R27): the foreground may step (R63, R121). -/
def Safe (s : State) : Prop := s.faults = [] ∧ s.refused = none

/-- The ranges R14, R29 and R34 give: BITCNT at most 8, NEDGE saturated at 8, no stamp later than now. -/
def InRange (s : State) : Prop :=
  s.bitcnt.toNat ≤ 8 ∧ s.nEdge ≤ 8 ∧ s.tLatchRise ≤ s.now ∧ s.tClkRise ≤ s.now ∧
    ∀ f, s.tClkFall = some f → f ≤ s.now

/-- The atomic steps of a composite operation as they stand in a state; none for the other operations (R30). -/
def planOf (i : Instr) (s : State) : List AtomicStep :=
  match i with
  | .read => readPlan s.params
  | .send => sendPlan
  | .iter => iterPlan s.params (s.rdyEng && s.rdyEp) s.chg
  | .nop => []
  | .latchHi => []
  | .latchLo => []
  | .clkHi => []
  | .clkLo => []
  | .sample => []
  | .wait _ => []
  | .chkrdy => []
  | .drain => []
  | .cmp => []
  | .encode => []
  | .commit => []

/-- The atomic step of a composite operation that the pc stands at (R28, R30). -/
def standsAt (s : State) : Option AtomicStep :=
  match s.pc with
  | .boot _ => none
  | .run _ sub =>
    match fetch s with
    | none => none
    | some w =>
      match decode w with
      | .ok i => (planOf i s)[sub]?
      | .error _ => none

/-- The reports enqueued, in order: the ARM events (R48). -/
def arms (h : List Event) : List Bytes3 :=
  h.filterMap fun e =>
    match e with
    | .arm r => some r
    | _ => none

/-- The report of the last ARM event of a history read from `last` on (R48, R53). -/
def lastArm (last : Option Bytes3) : List Event → Option Bytes3
  | [] => last
  | .arm r :: h => lastArm (some r) h
  | _ :: h => lastArm last h

/-- Every TX event shows the bytes of the last ARM event before it (R49, R109). -/
def TxShowsArm (last : Option Bytes3) : List Event → Prop
  | [] => True
  | .arm r :: h => TxShowsArm (some r) h
  | .tx r :: h => last = some r ∧ TxShowsArm last h
  | _ :: h => TxShowsArm last h

/-- The report of the last ARM event since the last reset, the zero report if there has been none (R99). -/
def armedReport (last : Bytes3) : List Event → Bytes3
  | [] => last
  | .arm r :: h => armedReport r h
  | .reset :: h => armedReport ⟨0, 0, 0⟩ h
  | _ :: h => armedReport last h

/-- The engine is held off and does not own the buffer: what holds inside SEND's critical section (R54, R109). -/
def Held (s : State) : Prop := s.ieUsb = false ∧ s.epInBusy = false

/-- What the bytes of TXBUF are at each step of SEND (R105, R107). -/
def Copied (s : State) : Option AtomicStep → Prop
  | some (.sendCopy 0) => Held s
  | some (.sendCopy 1) => Held s ∧ s.txbuf.b0 = s.report.b0
  | some (.sendCopy 2) => Held s ∧ s.txbuf.b0 = s.report.b0 ∧ s.txbuf.b1 = s.report.b1
  | some .sendExit => Held s ∧ s.txbuf = s.report
  | some .sendArm => s.txbuf = s.report
  | _ => True

/-- Buffer atomicity (R49, R53, R109): while the engine owns TXBUF it holds the report last armed, every packet the engine sent
is the report last armed, and TXBUF changes only while the engine is held off. -/
def BufferAtomic (s : State) : Prop :=
  (s.epInBusy = true → lastArm none s.hist = some s.txbuf) ∧ TxShowsArm none s.hist ∧ Copied s (standsAt s)

/-- In the hardwired program LAST is the state of the most recent ARM event, or 0 if there has been none since reset (R99); between the
arm and the commit that follows it, RSTATE is. A state is compared through its report. -/
def LastIsArmed (s : State) : Prop :=
  (s.program = .hardwired ∨ ∃ b, s.pc = .boot b) →
    armedReport ⟨0, 0, 0⟩ s.hist =
      reportOf (if standsAt s = some .commitAndIdle then s.rstate else s.last)

/-- The hand-off as a whole: buffer atomicity, REPORT is the report of RSTATE (R17), and R99. -/
def HandOff (s : State) : Prop :=
  BufferAtomic s ∧ s.report = reportOf s.rstate ∧ LastIsArmed s

/-- The Controller Link's state is the same in two states (R38). -/
def SameLink (s t : State) : Prop :=
  t.sr = s.sr ∧ t.bitcnt = s.bitcnt ∧ t.cur = s.cur ∧ t.latchQ = s.latchQ ∧ t.clkQ = s.clkQ ∧
    t.tLatchRise = s.tLatchRise ∧ t.tClkRise = s.tClkRise ∧ t.tClkFall = s.tClkFall ∧
    t.loadOk = s.loadOk ∧ t.clkOk = s.clkOk ∧ t.now = s.now

/-- The pad's state is the same (R34). -/
def SamePad (s t : State) : Prop := t.btn = s.btn ∧ t.pLoad = s.pLoad ∧ t.nEdge = s.nEdge

/-- The encoder's and the detector's state is the same (R16 to R20). -/
def SameReport (s t : State) : Prop :=
  t.report = s.report ∧ t.rstate = s.rstate ∧ t.act = s.act ∧ t.last = s.last ∧ t.chg = s.chg

/-- The adapter's and the sequencer's state is the same (R21 to R25). -/
def SameAdapter (s t : State) : Prop :=
  t.txbuf = s.txbuf ∧ t.rdyEng = s.rdyEng ∧ t.rdyEp = s.rdyEp ∧ t.ieUsb = s.ieUsb ∧ t.csSave = s.csSave ∧
    t.seqState = s.seqState

/-- The engine's environment state is the same (R32). -/
def SameEngine (s t : State) : Prop :=
  t.engReady = s.engReady ∧ t.epInBusy = s.epInBusy ∧ t.outPending = s.outPending ∧ t.usbIrq = s.usbIrq

/-- The model's own fields that no operation writes (R36). -/
def SameSetup (s t : State) : Prop := t.params = s.params ∧ t.program = s.program ∧ t.sched = s.sched

/-- The modelled time a whole read takes (R88, R147). -/
def readTime (p : Params) : Nat := p.wLatch + 8 * (p.wClkh + p.wClkl)

/-- A read that starts here finds the clock low long enough at its first pulse (R87, R141), and no latch rise in the future (R29). -/
def ReadStarts (s : State) : Prop :=
  s.clkQ = false ∧ (∀ f, s.tClkFall = some f → f + s.params.wClkl ≤ s.now + s.params.wLatch) ∧
    s.tLatchRise ≤ s.now

/-- What a read returns (R87): the buttons, or the constant of an absent controller. -/
def readResult (s : State) : Byte :=
  if s.params.padPresent then s.btn
  else if decLevel s.params.dataPolarity s.params.absentLevel then 0xFF else 0x00

end Sys2Proof
end

