-- ==== Sys2Proof/Certificates/Slice0/Obligations.lean ====
section
/-! DEFINITION. The statements about the model, taken from the spec's numbered rules. -/

open Sys2Proof Sys2Proof.Machine

/-! ## Encoding (R58 to R66) -/

/-- Words written out from the opcode map of R60 and the examples V1 to V8 decode to the operations they stand for. -/
def Obligations.OpcodeMapWords : Prop :=
  decode 0b0000_0000 = .ok .nop ∧ decode 0b0001_0000 = .ok .latchHi ∧ decode 0b0101_0000 = .ok .sample ∧
    decode 0b0110_1100 = .ok (.wait 12) ∧ decode 0b1000_0000 = .ok .chkrdy ∧ decode 0b1010_0000 = .ok .cmp ∧
    decode 0b1011_0000 = .ok .encode ∧ decode 0b1110_0000 = .ok .iter ∧
    decode 0b0111_0001 = .error .nonzeroArg ∧ decode 0b1111_0011 = .error .reservedOp

/-- R60, R62: decoding the word of a well-formed operation gives the operation back, with every count WAIT admits. -/
def Obligations.DecodeOfEncode : Prop :=
  ∀ i : Instr, wellFormed i = true → decode (encode i) = .ok i

/-- R60, R62: a word that decodes is the word of the operation it decodes to, and that operation is well-formed. -/
def Obligations.EncodeOfDecode : Prop :=
  ∀ (w : Byte) (i : Instr), decode w = .ok i → wellFormed i = true ∧ encode i = w

/-- R62: the decoding rule, case by case, with every op of the map of R60, and its count: 30 of the 256 words spell an operation. -/
def Obligations.DecodeByCases : Prop :=
  (∀ w : Byte,
    if opOf w = 0x6 then decode w = .ok (.wait (argOf w).toNat)
    else if opOf w = 0xF then decode w = .error .reservedOp
    else if argOf w ≠ 0 then decode w = .error .nonzeroArg
    else ∃ i, decode w = .ok i ∧ formatOf i = .n ∧ opcode i = opOf w) ∧
  (List.range 256).countP (fun n => (decodeTableWord 8 n).isSome) = 30

/-- R63, R47: a word or a byte index that is refused sets REFUSED and changes nothing else, and the foreground then takes no further step: alone
it answers the model's stop wordRefused, and a turn of its own passes (log 1, log 7). -/
def Obligations.RefusalChangesOnlyRefused : Prop :=
  (∀ (s : State) (idx sub : Nat) (w : Byte) (e : DecodeError),
    s.sched = [] → s.pc = .run idx sub → Safe s → fetch s = some w → decode w = .error e →
      ∃ x, step s = .next { s with refused := some x } ∧
        step { s with refused := some x } = .refused .wordRefused ∧
        ∀ rest, step { s with refused := some x, sched := .foreground :: rest } =
          .next { s with refused := some x, sched := rest }) ∧
  (∀ (s : State) (b : Bytes3) (i : Nat) (v : Byte) (p : PC),
    s.refused = none → 3 ≤ i →
      readByte b i = .error (.refuse (.index i)) ∧ writeByte b i v = .error (.refuse (.index i)) ∧
        writeTxbuf i v s = .error (.refuse (.index i)) ∧
        settle (writeTxbuf i v s) p s = .next { s with refused := some (.index i) } ∧
        ((∃ idx sub, s.pc = .run idx sub) → s.faults = [] →
          (s.sched = [] → step { s with refused := some (.index i) } = .refused .wordRefused) ∧
          ∀ rest, step { s with refused := some (.index i), sched := .foreground :: rest } =
            .next { s with refused := some (.index i), sched := rest }))

/-- R66: a delay's counts are WAIT operands and add up to the delay. -/
def Obligations.DelayAddsUp : Prop :=
  ∀ n : Nat, (delayCounts n).sum = n ∧ ∀ t ∈ delayCounts n, 1 ≤ t ∧ t ≤ 15

/-- R66, R88: with every W from 1 to 15, READ is STROBE W_LATCH and then 8 times SAMPLE, PULSE W_CLKH, WAIT W_CLKL: 43 atomic steps. -/
def Obligations.ReadExpansion : Prop :=
  ∀ p : Params, 1 ≤ p.wLatch → p.wLatch ≤ 15 → 1 ≤ p.wClkh → p.wClkh ≤ 15 → 1 ≤ p.wClkl → p.wClkl ≤ 15 →
    readPlan p = [.latchHi, .wait p.wLatch, .latchLo] ++
        (List.replicate 8 [.sample, .clkHi, .wait p.wClkh, .clkLo, .wait p.wClkl]).flatten ∧
      (readPlan p).length = 43

/-! ## The single-step operations: the whole next state, so their frame too (R80 to R85, R91, R97, R98, R101, R102, R111) -/

/-- R111: NOP advances the pc and changes nothing else. -/
def Obligations.NopOnlyAdvancesPc : Prop :=
  decode 0x00 = .ok .nop ∧
    ∀ (s : State) (idx : Nat), s.pc = .run idx 0 → exec .nop s = .next { s with pc := .run (idx + 1) 0 }

/-- R80: LATCH_HI asserts the latch, stamps a rise only, and starts a new read. -/
def Obligations.LatchHiStartsRead : Prop :=
  decode 0x10 = .ok .latchHi ∧
    ∀ (s : State) (idx : Nat), s.pc = .run idx 0 →
      exec .latchHi s = .next
        { s with
          tLatchRise := if s.latchQ = false then s.now else s.tLatchRise
          latchQ := true
          loadOk := false
          sr := 0
          bitcnt := 0
          hist := s.hist ++ [.line .nesLatch true s.now]
          pc := .run (idx + 1) 0 }

/-- R81, with the capture of R76: LATCH_LO lowers the latch; on a fall LOAD_OK says whether it was high for W_LATCH, CLK_OK is set, and a
present pad captures its buttons. -/
def Obligations.LatchLoCaptures : Prop :=
  decode 0x20 = .ok .latchLo ∧
    ∀ (s : State) (idx : Nat), s.pc = .run idx 0 →
      exec .latchLo s = .next
        { s with
          loadOk := if s.latchQ = true then decide (s.tLatchRise + s.params.wLatch ≤ s.now) else s.loadOk
          clkOk := if s.latchQ = true then true else s.clkOk
          pLoad := if s.latchQ = true ∧ s.params.padPresent = true then s.btn else s.pLoad
          nEdge := if s.latchQ = true ∧ s.params.padPresent = true then 0 else s.nEdge
          latchQ := false
          hist := s.hist ++ [.line .nesLatch false s.now]
          pc := .run (idx + 1) 0 }

/-- R82, with the shift of R77: CLK_HI raises the clock; on a rise it checks the low time, stamps, clears CLK_OK, and a present pad shifts
when the latch is low. -/
def Obligations.ClkHiShifts : Prop :=
  decode 0x30 = .ok .clkHi ∧
    ∀ (s : State) (idx : Nat), s.pc = .run idx 0 →
      exec .clkHi s = .next
        { s with
          loadOk :=
            if s.clkQ = false ∧ ∃ f ∈ s.tClkFall, s.now < f + s.params.wClkl then false else s.loadOk
          tClkRise := if s.clkQ = false then s.now else s.tClkRise
          clkOk := if s.clkQ = false then false else s.clkOk
          nEdge :=
            if s.clkQ = false ∧ s.latchQ = false ∧ s.params.padPresent = true then min (s.nEdge + 1) 8
            else s.nEdge
          clkQ := true
          hist := s.hist ++ [.line .nesClk true s.now]
          pc := .run (idx + 1) 0 }

/-- R83: CLK_LO lowers the clock; on a fall CLK_OK says whether it was high for W_CLKH, and the fall is stamped. -/
def Obligations.ClkLoStamps : Prop :=
  decode 0x40 = .ok .clkLo ∧
    ∀ (s : State) (idx : Nat), s.pc = .run idx 0 →
      exec .clkLo s = .next
        { s with
          clkOk := if s.clkQ = true then decide (s.tClkRise + s.params.wClkh ≤ s.now) else s.clkOk
          tClkFall := if s.clkQ = true then some s.now else s.tClkFall
          clkQ := false
          hist := s.hist ++ [.line .nesClk false s.now]
          pc := .run (idx + 1) 0 }

/-- R79, R84: SAMPLE. With BITCNT = 8 it raises F_SAMPLE_OVERRUN and writes nothing else. With BITCNT below 8, bit BITCNT of SR, and no other, becomes the decoded level when the sample is valid and a free
value (Config.sampleDraw, log 6) when it is not; the eighth bit completes the read into CUR. The statement holds whatever the free value is. -/
def Obligations.SampleStoresOneBit : Prop :=
  decode 0x50 = .ok .sample ∧
    (∀ (s : State) (idx : Nat), s.pc = .run idx 0 → s.bitcnt = 8 →
      exec .sample s = .next { s with faults := s.faults ++ [⟨.sampleOverrun, 8⟩] }) ∧
    ∀ (s : State) (idx : Nat), s.pc = .run idx 0 → s.bitcnt.toNat < 8 →
      ∃ (v b : Bool) (sr : Byte),
        (v = true ↔ s.latchQ = false ∧ s.loadOk = true ∧
          (if s.clkQ = true then s.tClkRise + s.params.wClkh ≤ s.now else s.clkOk = true)) ∧
        (b = if v = true then decLevel s.params.dataPolarity (samplePort .nesData s) else Config.sampleDraw s.draws) ∧
        (∀ j < 8, sr.getLsbD j = if j = s.bitcnt.toNat then b else s.sr.getLsbD j) ∧
        exec .sample s = .next
          { s with
            sr := sr
            bitcnt := s.bitcnt + 1
            cur := if s.bitcnt = 7 then sr else s.cur
            draws := if v = true then s.draws else s.draws + 1
            hist := s.hist ++ (.smp s.bitcnt b v :: if s.bitcnt = 7 then [.readDone sr] else [])
            pc := .run (idx + 1) 0 }

/-- R84, R120, R121: a ninth SAMPLE at a word of the sequence, however the state came about, stops the foreground for good: the fault is recorded with info
BITCNT = 8, the next foreground step is the model's stop, and the engine's turn still comes. -/
def Obligations.NinthSampleStopsForeground : Prop :=
  ∀ (s : State) (idx : Nat), s.sched = [] → Safe s → s.pc = .run idx 0 → fetch s = some 0x50 → s.bitcnt = 8 →
    ∃ t, step s = .next t ∧ t = { s with faults := [⟨.sampleOverrun, 8⟩] } ∧ faulted .sampleOverrun t = true ∧
      step t = .fault .foregroundStopped ∧
      ∀ a, step { t with sched := [.engine a] } = .next (engineTurn a t)

/-- R70, R78, R79, R84: a valid SAMPLE of a present pad stores the captured button NEDGE, 1 for pressed, whatever DATA's polarity is, and
FILL_BIT once the pad has shifted 8 times; with no controller it stores ABSENT_LEVEL decoded. -/
def Obligations.ValidSampleReadsButton : Prop :=
  ∀ (s : State) (idx : Nat), s.pc = .run idx 0 → s.bitcnt.toNat < 8 → sampleValid s = true →
    ∃ t, exec .sample s = .next t ∧
      t.sr.getLsbD s.bitcnt.toNat =
        (if s.params.padPresent = false then
          (s.params.absentLevel ^^ decide (s.params.dataPolarity = .activeLow))
        else if s.nEdge < 8 then s.pLoad.getLsbD s.nEdge
        else s.params.fillBit) ∧
      t.bitcnt = s.bitcnt + 1 ∧ t.draws = s.draws

/-- R85: WAIT t lets t units pass and changes nothing else but the pc. -/
def Obligations.WaitAdvancesTime : Prop :=
  (∀ t : Nat, t ≤ 15 → decode (0x60 ||| BitVec.ofNat 8 t) = .ok (.wait t)) ∧
    ∀ (s : State) (idx t : Nat), s.pc = .run idx 0 →
      exec (.wait t) s = .next { s with now := s.now + t, pc := .run (idx + 1) 0 }

/-- R101: CHKRDY samples both readiness ports in one atomic step. -/
def Obligations.ChkrdySamplesBoth : Prop :=
  decode 0x80 = .ok .chkrdy ∧
    ∀ (s : State) (idx : Nat), s.pc = .run idx 0 →
      exec .chkrdy s = .next
        { s with
          rdyEng := s.engReady
          rdyEp := s.engReady && !s.epInBusy
          pc := .run (idx + 1) 0 }

/-- R102: DRAIN acknowledges a pending packet with one REARM_OUT pulse, and otherwise changes nothing but the pc. -/
def Obligations.DrainAcknowledges : Prop :=
  decode 0x90 = .ok .drain ∧
    ∀ (s : State) (idx : Nat), s.pc = .run idx 0 →
      exec .drain s = .next
        (if s.outPending = true then
          { s with
            outPending := false
            pulses := s.pulses ++ [.rearmOut s.params.epOut]
            hist := s.hist ++ [.drainAck]
            pc := .run (idx + 1) 0 }
        else { s with pc := .run (idx + 1) 0 })

/-- R97: CMP compares all 8 bits of CUR and LAST. -/
def Obligations.CmpComparesStates : Prop :=
  decode 0xA0 = .ok .cmp ∧
    ∀ (s : State) (idx : Nat), s.pc = .run idx 0 →
      exec .cmp s = .next { s with chg := decide (s.cur ≠ s.last), pc := .run (idx + 1) 0 }

/-- R91 to R95: ENCODE builds the report from CUR with UP over DOWN and LEFT over RIGHT, keeps the state in RSTATE, and sets ACT. -/
def Obligations.EncodeBuildsReport : Prop :=
  decode 0xB0 = .ok .encode ∧
    ∀ (s : State) (idx : Nat), s.pc = .run idx 0 →
      exec .encode s = .next
        { s with
          report :=
            { b0 := if s.cur.getLsbD 6 then 0x80 else if s.cur.getLsbD 7 then 0x7F else 0x00
              b1 := if s.cur.getLsbD 4 then 0x80 else if s.cur.getLsbD 5 then 0x7F else 0x00
              b2 := s.cur &&& 0x0F }
          rstate := s.cur
          act := decide (s.cur ≠ 0)
          pc := .run (idx + 1) 0 }

/-- R96, items 2 and 3: two states give the same report exactly when they agree once a losing direction bit is dropped (DOWN under UP,
RIGHT under LEFT), and only the zero state gives the zero report. -/
def Obligations.ReportLosesOnlyLosers : Prop :=
  (∀ u v : Byte, reportOf u = reportOf v ↔
    u &&& 0x5F = v &&& 0x5F ∧
      (u.getLsbD 4 = false → u.getLsbD 5 = v.getLsbD 5) ∧ (u.getLsbD 6 = false → u.getLsbD 7 = v.getLsbD 7)) ∧
    ∀ u : Byte, reportOf u = ⟨0, 0, 0⟩ → u = 0

/-- R98: COMMIT latches RSTATE into LAST, unconditionally. -/
def Obligations.CommitLatchesRstate : Prop :=
  decode 0xD0 = .ok .commit ∧
    ∀ (s : State) (idx : Nat), s.pc = .run idx 0 →
      exec .commit s = .next { s with last := s.rstate, pc := .run (idx + 1) 0 }

/-! ## SEND, READ and ITER, one atomic step at a time (R86, R103 to R108, R113 to R117) -/

/-- R103 to R107: SEND's six atomic steps; sub 0 and sub 5 fault when the endpoint is not ready. -/
def Obligations.SendSixSteps : Prop :=
  decode 0xC0 = .ok .send ∧ ∀ (s : State) (idx : Nat),
    ((s.pc = .run idx 0 ∨ s.pc = .run idx 5) → (s.engReady = false ∨ s.epInBusy = true) →
      ∃ sub, s.pc = .run idx sub ∧
        exec .send s = .next { s with faults := s.faults ++ [⟨.sendNotReady, sub⟩] }) ∧
    (s.pc = .run idx 0 → s.engReady = true → s.epInBusy = false →
      exec .send s = .next { s with csSave := s.ieUsb, ieUsb := false, pc := .run idx 1 }) ∧
    (s.pc = .run idx 1 →
      exec .send s = .next
        { s with
          txbuf := { s.txbuf with b0 := s.report.b0 }
          pulses := s.pulses ++ [.txbufW 0 s.report.b0]
          pc := .run idx 2 }) ∧
    (s.pc = .run idx 2 →
      exec .send s = .next
        { s with
          txbuf := { s.txbuf with b1 := s.report.b1 }
          pulses := s.pulses ++ [.txbufW 1 s.report.b1]
          pc := .run idx 3 }) ∧
    (s.pc = .run idx 3 →
      exec .send s = .next
        { s with
          txbuf := { s.txbuf with b2 := s.report.b2 }
          pulses := s.pulses ++ [.txbufW 2 s.report.b2]
          pc := .run idx 4 }) ∧
    (s.pc = .run idx 4 → exec .send s = .next { s with ieUsb := s.csSave, pc := .run idx 5 }) ∧
    (s.pc = .run idx 5 → s.engReady = true → s.epInBusy = false →
      exec .send s = .next
        { s with
          epInBusy := true
          pulses := s.pulses ++ [.armIn s.params.epIn]
          hist := s.hist ++ [.arm s.txbuf]
          pc := .run (idx + 1) 0 })

/-- R108, V57: readiness that drops between SEND's critical section and its arm makes SEND fault at sub 5: TXBUF holds the new bytes, IE_USB is restored, nothing
is armed, and the foreground then stops. -/
def Obligations.SendFaultsWhenReadinessDrops : Prop :=
  ∀ (s : State) (idx : Nat), s.sched = [] → Safe s → s.pc = .run idx 0 → fetch s = some 0xC0 →
    s.engReady = true → s.epInBusy = false →
      ∃ t u, Host.Core.run core 5 s = .next t ∧ t.pc = .run idx 5 ∧ t.txbuf = s.report ∧ t.ieUsb = s.ieUsb ∧
        step { t with engReady := false } = .next u ∧
        u = { t with engReady := false, faults := [⟨.sendNotReady, 5⟩] } ∧ arms u.hist = arms s.hist ∧
        u.epInBusy = false ∧ step u = .fault .foregroundStopped

/-- R103, V54g: a SEND that runs with the endpoint ready and no other agent's turn between its steps ends with the report in TXBUF, armed,
and IE_USB as it was. -/
def Obligations.SendHandsOverReport : Prop :=
  ∀ (s : State) (idx : Nat), s.sched = [] → Safe s → s.pc = .run idx 0 → fetch s = some 0xC0 →
    s.engReady = true → s.epInBusy = false →
      ∃ t, Host.Core.run core 6 s = .next t ∧
        t = { s with
              txbuf := s.report
              csSave := s.ieUsb
              epInBusy := true
              hist := s.hist ++ [.arm s.report]
              pulses := s.pulses ++
                [.txbufW 0 s.report.b0, .txbufW 1 s.report.b1, .txbufW 2 s.report.b2, .armIn s.params.epIn]
              pc := .run (idx + 1) 0 }

/-- R80, R86: READ begins with LATCH_HI and then stands at its next atomic step. -/
def Obligations.ReadBeginsWithLatch : Prop :=
  decode 0x70 = .ok .read ∧
    ∀ (s : State) (idx : Nat), s.pc = .run idx 0 →
      exec .read s = .next
        { s with
          tLatchRise := if s.latchQ = false then s.now else s.tLatchRise
          latchQ := true
          loadOk := false
          sr := 0
          bitcnt := 0
          hist := s.hist ++ [.line .nesLatch true s.now]
          pc := .run idx 1 }

/-- R86: at each sub, READ does exactly what the line operation of that place does, and only the pc differs; the operation ends after its last
atomic step. Only a place that is a SAMPLE asks for BITCNT below 8. -/
def Obligations.ReadStepsAreLineOperations : Prop :=
  ∀ (s : State) (idx sub : Nat) (i : Instr) (a : AtomicStep), s.pc = .run idx sub →
    (readPlan s.params)[sub]? = some a → (a = .sample → s.bitcnt.toNat < 8) →
    (i, a) ∈ [(.latchHi, .latchHi), (.latchLo, .latchLo), (.clkHi, .clkHi), (.clkLo, .clkLo), (.sample, .sample)] ∨
        (∃ n, i = .wait n ∧ a = .wait n) →
      ∃ t, exec i { s with pc := .run idx 0 } = .next t ∧
        exec .read s = .next
          { t with pc := if sub + 1 = (readPlan s.params).length then .run (idx + 1) 0 else .run idx (sub + 1) }

/-- R87, R88: from any state where a read may start, READ run through with no other agent's turn between its steps ends after its fixed number of
steps with CUR the buttons held at the latch fall (or the absent controller's constant), both lines low, BITCNT = 8, the time advanced by
exactly W_LATCH + 8 × (W_CLKH + W_CLKL), and everything outside the Controller Link, the pad and the history unchanged. -/
def Obligations.ReadReturnsButtons : Prop :=
  ∀ (s : State) (idx : Nat), s.sched = [] → Safe s → s.pc = .run idx 0 → fetch s = some 0x70 → ReadStarts s →
    ∃ t, Host.Core.run core (readPlan s.params).length s = .next t ∧
      t.cur = readResult s ∧ t.sr = readResult s ∧ t.bitcnt = 8 ∧ t.latchQ = false ∧ t.clkQ = false ∧
      t.now = s.now + readTime s.params ∧ t.pc = .run (idx + 1) 0 ∧ t.draws = s.draws ∧ t.btn = s.btn ∧
      t.faults = [] ∧ t.refused = none ∧ arms t.hist = arms s.hist ∧ t.pulses = s.pulses ∧
      SameReport s t ∧ SameAdapter s t ∧ SameEngine s t ∧ SameSetup s t

/-- R113 to R117: ITER's own steps outside READ and SEND, each with its whole next state. -/
def Obligations.IterControlSteps : Prop :=
  ∀ (s : State) (idx : Nat) (fin : PC),
    (fin = if s.program = .hardwired then .run 0 0 else .run (idx + 1) 0) →
    (s.pc = .run idx 0 →
      exec .iter s = .next
        { s with rdyEng := s.engReady, rdyEp := s.engReady && !s.epInBusy, pc := .run idx 1 }) ∧
    (s.pc = .run idx 1 →
      exec .iter s = .next
        (if s.rdyEng = true ∧ s.outPending = true then
          { s with
            outPending := false
            pulses := s.pulses ++ [.rearmOut s.params.epOut]
            hist := s.hist ++ [.drainAck]
            seqState := .polling
            pc := .run idx 2 }
        else { s with seqState := .polling, pc := .run idx 2 })) ∧
    (s.pc = .run idx 2 → (s.rdyEng && s.rdyEp) = false →
      exec .iter s = .next { s with seqState := .idle, pc := fin }) ∧
    ((s.rdyEng && s.rdyEp) = true → s.pc = .run idx (2 + (readPlan s.params).length) →
      exec .iter s = .next
        { s with
          chg := decide (s.cur ≠ s.last)
          seqState := if s.cur ≠ s.last then .reporting else s.seqState
          pc := .run idx (3 + (readPlan s.params).length) }) ∧
    ((s.rdyEng && s.rdyEp) = true → s.chg = false → s.pc = .run idx (3 + (readPlan s.params).length) →
      exec .iter s = .next { s with seqState := .idle, pc := fin }) ∧
    ((s.rdyEng && s.rdyEp) = true → s.chg = true → s.pc = .run idx (3 + (readPlan s.params).length) →
      exec .iter s = .next
        { s with
          report := reportOf s.cur
          rstate := s.cur
          act := decide (s.cur ≠ 0)
          pc := .run idx (4 + (readPlan s.params).length) }) ∧
    ((s.rdyEng && s.rdyEp) = true → s.chg = true → s.pc = .run idx (10 + (readPlan s.params).length) →
      exec .iter s = .next { s with last := s.rstate, seqState := .idle, pc := fin })

/-- R113: inside an iteration that acquires, ITER's READ steps and, on a change, its SEND steps are those of READ and SEND, two and four
steps further on; a SEND step that faults faults ITER. Only READ's SAMPLE steps ask for BITCNT below 8. -/
def Obligations.IterRunsReadAndSend : Prop :=
  ∀ (s t : State) (idx j : Nat), (s.rdyEng && s.rdyEp) = true →
    (j < (readPlan s.params).length → s.pc = .run idx (2 + j) →
      ((readPlan s.params)[j]? = some .sample → s.bitcnt.toNat < 8) →
      (exec .read { s with pc := .run idx j } = .next t → exec .iter s = .next { t with pc := .run idx (3 + j) }) ∧
      ∃ u, exec .iter s = .next u ∧ u.pc = .run idx (3 + j)) ∧
    (s.chg = true → j < 6 → s.pc = .run idx (4 + (readPlan s.params).length + j) →
      exec .send { s with pc := .run idx j } = .next t →
        exec .iter s = .next
          { t with pc := if t.faults = s.faults then .run idx (5 + (readPlan s.params).length + j) else s.pc })

/-- R114, V60, V61: an iteration that finds the engine or the endpoint not ready takes 3 atomic steps, drains only when the engine is ready,
and reads, compares, encodes, sends and commits nothing. -/
def Obligations.IterNotReadySkips : Prop :=
  ∀ s : State, s.sched = [] → Safe s → s.pc = .run 0 0 → s.program = .hardwired →
    (s.engReady && !s.epInBusy) = false →
      Host.Core.run core 3 s = .next
        { s with
          rdyEng := s.engReady
          rdyEp := false
          outPending := s.outPending && !s.engReady
          pulses := s.pulses ++ (if s.engReady && s.outPending then [.rearmOut s.params.epOut] else [])
          hist := s.hist ++ (if s.engReady && s.outPending then [.drainAck] else [])
          seqState := .idle
          pc := .run 0 0 }

/-- R113, R115, R118 items 1 and 3, V62: an iteration of the hardwired program that is ready and reads the state last reported ends, with
no ARM event, back at (0, 0). -/
def Obligations.IterNoChangeSendsNothing : Prop :=
  ∀ s : State, s.sched = [] → Safe s → s.pc = .run 0 0 → s.program = .hardwired → ReadStarts s →
    s.engReady = true → s.epInBusy = false → readResult s = s.last →
      ∃ t, Host.Core.run core (iterPlan s.params true false).length s = .next t ∧
        t.cur = readResult s ∧ t.chg = false ∧ t.seqState = .idle ∧ t.pc = .run 0 0 ∧
        t.now = s.now + readTime s.params ∧ arms t.hist = arms s.hist ∧ t.last = s.last ∧ t.report = s.report ∧
        t.rstate = s.rstate ∧ t.act = s.act ∧ t.txbuf = s.txbuf ∧ t.epInBusy = false ∧ t.faults = [] ∧
        t.outPending = false

/-- R113, R116, R118 items 2 and 4, V63: an iteration of the hardwired program that is ready and reads a state other than the one last reported
enqueues exactly one report, that state's, and commits it. -/
def Obligations.IterChangeSendsOneReport : Prop :=
  ∀ s : State, s.sched = [] → Safe s → s.pc = .run 0 0 → s.program = .hardwired → ReadStarts s →
    s.engReady = true → s.epInBusy = false → readResult s ≠ s.last →
      ∃ t, Host.Core.run core (iterPlan s.params true true).length s = .next t ∧
        t.cur = readResult s ∧ t.chg = true ∧ t.rstate = readResult s ∧ t.last = readResult s ∧
        t.act = decide (readResult s ≠ 0) ∧ t.report = reportOf (readResult s) ∧ t.txbuf = reportOf (readResult s) ∧
        arms t.hist = arms s.hist ++ [reportOf (readResult s)] ∧ t.epInBusy = true ∧ t.ieUsb = s.ieUsb ∧
        t.csSave = s.ieUsb ∧ t.seqState = .idle ∧ t.pc = .run 0 0 ∧ t.now = s.now + readTime s.params ∧
        t.faults = [] ∧ t.outPending = false

/-! ## Frames and whole-machine rules -/

/-- R13 to R38: LATCH_HI, LATCH_LO, CLK_HI, CLK_LO, SAMPLE, WAIT and READ change nothing of the encoder, the detector, the adapter, the sequencer's state
and the engine; they neither press buttons nor refuse, and pulse no port. -/
def Obligations.LinkOperationsFrame : Prop :=
  ∀ (i : Instr) (s t : State),
    i = .latchHi ∨ i = .latchLo ∨ i = .clkHi ∨ i = .clkLo ∨ i = .sample ∨ (∃ n, i = .wait n) ∨ i = .read →
    exec i s = .next t →
      SameReport s t ∧ SameAdapter s t ∧ SameEngine s t ∧ SameSetup s t ∧ t.btn = s.btn ∧ t.refused = s.refused ∧
        t.pulses = s.pulses

/-- R16 to R20, R91, R97, R98, R111: NOP, ENCODE, CMP and COMMIT change nothing of the link, the pad, the adapter, the engine, the history,
the faults and the pulses. -/
def Obligations.ReportOperationsFrame : Prop :=
  ∀ (i : Instr) (s t : State), i = .nop ∨ i = .encode ∨ i = .cmp ∨ i = .commit → exec i s = .next t →
    SameLink s t ∧ SamePad s t ∧ SameAdapter s t ∧ SameEngine s t ∧ SameSetup s t ∧ t.hist = s.hist ∧
      t.pulses = s.pulses ∧ t.faults = s.faults ∧ t.refused = s.refused ∧ t.draws = s.draws ∧
      (i ≠ .encode → t.report = s.report ∧ t.rstate = s.rstate ∧ t.act = s.act) ∧
      (i ≠ .cmp → t.chg = s.chg) ∧ (i ≠ .commit → t.last = s.last)

/-- R21 to R24, R101 to R107: CHKRDY, DRAIN and SEND change nothing of the link, the pad, the encoder, the detector and SEQ_STATE; only CHKRDY
writes the readiness flags; only SEND writes TXBUF, IE_USB, CS_SAVE, EP_IN_BUSY_E and FAULT; only DRAIN writes OUT_PENDING_E. -/
def Obligations.TransportOperationsFrame : Prop :=
  ∀ (i : Instr) (s t : State), i = .chkrdy ∨ i = .drain ∨ i = .send → exec i s = .next t →
    SameLink s t ∧ SamePad s t ∧ SameReport s t ∧ SameSetup s t ∧ t.seqState = s.seqState ∧
      t.engReady = s.engReady ∧ t.usbIrq = s.usbIrq ∧ t.refused = s.refused ∧ t.draws = s.draws ∧
      (i ≠ .chkrdy → t.rdyEng = s.rdyEng ∧ t.rdyEp = s.rdyEp) ∧
      (i ≠ .send → t.txbuf = s.txbuf ∧ t.ieUsb = s.ieUsb ∧ t.csSave = s.csSave ∧ t.epInBusy = s.epInBusy ∧
        t.faults = s.faults) ∧
      (i ≠ .drain → t.outPending = s.outPending) ∧
      (i = .chkrdy → t.hist = s.hist ∧ t.pulses = s.pulses)

/-- R113, R32, R34, R36: no atomic step of ITER presses buttons, moves the engine's ready flag or pending event, refuses, or touches the setup; in one
step it changes either the link's state or the report's, not both. -/
def Obligations.IterFrame : Prop :=
  ∀ s t : State, exec .iter s = .next t →
    SameSetup s t ∧ t.btn = s.btn ∧ t.engReady = s.engReady ∧ t.usbIrq = s.usbIrq ∧ t.refused = s.refused ∧
      (SameLink s t ∨ SameReport s t) ∧ (SameLink s t → SamePad s t)

/-- R16 to R25, R32: only the operations the spec lists write the elements of the encoder, the detector, the adapter and the sequencer, and the
two engine flags the foreground writes: LAST only COMMIT, CHG only CMP, REPORT, RSTATE and ACT only ENCODE, TXBUF, IE_USB, CS_SAVE and
EP_IN_BUSY_E only SEND, OUT_PENDING_E only DRAIN, the readiness flags only CHKRDY (all of these also inside ITER), SEQ_STATE only ITER. The
Controller Link's elements are in LinkSoleWriters. -/
def Obligations.SoleWriters : Prop :=
  ∀ (i : Instr) (s t : State), exec i s = .next t →
    (t.last ≠ s.last → i = .commit ∨ i = .iter) ∧
    (t.chg ≠ s.chg → i = .cmp ∨ i = .iter) ∧
    (t.report ≠ s.report ∨ t.rstate ≠ s.rstate ∨ t.act ≠ s.act → i = .encode ∨ i = .iter) ∧
    (t.txbuf ≠ s.txbuf ∨ t.ieUsb ≠ s.ieUsb ∨ t.csSave ≠ s.csSave ∨ t.epInBusy ≠ s.epInBusy →
      i = .send ∨ i = .iter) ∧
    (t.outPending ≠ s.outPending → i = .drain ∨ i = .iter) ∧
    (t.rdyEng ≠ s.rdyEng ∨ t.rdyEp ≠ s.rdyEp → i = .chkrdy ∨ i = .iter) ∧
    (t.seqState ≠ s.seqState → i = .iter)

/-- R28, R30 (the model's stop noSuchStep, log 8): no operation has an atomic step while boot is running, and a one-step operation has none at a
sub other than 0. -/
def Obligations.NoStepOutsideOperation : Prop :=
  ∀ (i : Instr) (s : State),
    ((∃ b, s.pc = .boot b) → exec i s = .fault .noSuchStep) ∧
    ((∃ idx sub, s.pc = .run idx (sub + 1)) → i ≠ .read → i ≠ .send → i ≠ .iter → exec i s = .fault .noSuchStep)

/-! ## Steps and agents (R28, R52, R121 to R128) -/

/-- R28, R52, R62 (the schedule is the model's, log 1): when the foreground moves and the word at pc decodes to i, the step is i's. -/
def Obligations.StepRunsDecodedOperation : Prop :=
  ∀ (s : State) (idx sub : Nat) (w : Byte) (i : Instr),
    s.pc = .run idx sub → Safe s → fetch s = some w → decode w = .ok i →
      (s.sched = [] → step s = exec i s) ∧
      ∀ rest, s.sched = .foreground :: rest → step s = exec i { s with sched := rest }

/-- R28, R73, R117: the word at pc is the word at idx of a supplied sequence, which ends past its last word; the hardwired program is the single word 0xE0. -/
def Obligations.SequenceFetchAndEnd : Prop :=
  ∀ (s : State) (idx sub : Nat), s.pc = .run idx sub →
    (s.program = .hardwired → idx = 0 → fetch s = some 0xE0) ∧
    (∀ ws, s.program = .supplied ws → fetch s = ws[idx]? ∧
      (ws.length ≤ idx → Safe s → s.sched = [] → step s = .fault .sequenceEnded))

/-- R124 to R126: an enabled engine step records ISR, transmits TXBUF if chosen and an arm is outstanding, does the chosen housekeeping, and
clears the pending event; nothing else changes. -/
def Obligations.EngineStepWhenEnabled : Prop :=
  ∀ (s : State) (a : EngineActs) (rest : List Turn), s.sched = .engine a :: rest → s.ieUsb = true → s.usbIrq = true →
    step s = .next
      { s with
        sched := rest
        usbIrq := false
        hist := s.hist ++ (.isr :: if a.transmit && s.epInBusy then [.tx s.txbuf] else [])
        epInBusy := s.epInBusy && !a.transmit && (a.ready != .endpointReset)
        engReady := match a.ready with
          | .keep => s.engReady
          | .up => true
          | .down => false
          | .endpointReset => false
        outPending := s.outPending || a.outPacket }

/-- R23, R54, R123, V58: with IE_USB = 0 or nothing pending the engine takes no step, and a masked event stays pending. -/
def Obligations.MaskedEngineTakesNoStep : Prop :=
  ∀ (s : State) (a : EngineActs) (rest : List Turn), s.sched = .engine a :: rest → s.ieUsb = false ∨ s.usbIrq = false →
    step s = .next { s with sched := rest }

/-- R124: no engine turn reads its way into the foreground: it leaves the link, the pad, the encoder, the detector, the adapter with TXBUF and
IE_USB, the pc and the faults as they were. -/
def Obligations.EngineLeavesForeground : Prop :=
  ∀ (s t : State) (a : EngineActs) (rest : List Turn), s.sched = .engine a :: rest → step s = .next t →
    SameLink s t ∧ SamePad s t ∧ SameReport s t ∧ SameAdapter s t ∧ t.pc = s.pc ∧ t.faults = s.faults ∧
      t.refused = s.refused ∧ t.pulses = s.pulses ∧ t.params = s.params ∧ t.program = s.program ∧ t.draws = s.draws

/-- R121, R63: with a fault or a refusal recorded the foreground takes no further step, but the engine, the buttons and the pending event still move. -/
def Obligations.StoppedForegroundOthersMove : Prop :=
  ∀ (s : State) (idx sub : Nat) (rest : List Turn), s.pc = .run idx sub → ¬ Safe s →
    (s.sched = [] → ∀ t, step s ≠ .next t) ∧
    (s.sched = .foreground :: rest → step s = .next { s with sched := rest }) ∧
    (∀ b, s.sched = .buttons b :: rest → step s = .next { s with sched := rest, btn := b }) ∧
    (s.sched = .usbEvent :: rest → step s = .next { s with sched := rest, usbIrq := true }) ∧
    (∀ a, s.sched = .engine a :: rest → ∃ t, step s = .next t)

/-! ## Reset and boot (R136 to R138) -/

/-- R37, R137: after the power-on reset every element with a stated value holds it, at boot step 0. HIST holds the RESET event the reset itself
emits (R137, V65; R37 lists it empty before that, log 12). The draws (TXBUF and the pad), log 4 and log 5, and the model's own fields are
not mentioned. -/
def Obligations.PowerOnResetValues : Prop :=
  State.reset.sr = 0 ∧ State.reset.bitcnt = 0 ∧ State.reset.cur = 0 ∧ State.reset.last = 0 ∧ State.reset.chg = false ∧
    State.reset.report = ⟨0, 0, 0⟩ ∧ State.reset.rstate = 0 ∧ State.reset.act = false ∧ State.reset.rdyEng = false ∧
    State.reset.rdyEp = false ∧ State.reset.ieUsb = false ∧ State.reset.csSave = false ∧
    State.reset.seqState = .idle ∧ State.reset.latchQ = false ∧ State.reset.clkQ = false ∧
    State.reset.pc = .boot 0 ∧ State.reset.tLatchRise = 0 ∧ State.reset.tClkRise = 0 ∧ State.reset.tClkFall = none ∧
    State.reset.loadOk = false ∧ State.reset.clkOk = false ∧ State.reset.now = 0 ∧ Safe State.reset ∧
    State.reset.engReady = false ∧ State.reset.epInBusy = false ∧ State.reset.outPending = false ∧
    State.reset.usbIrq = false ∧ State.reset.hist = [.reset]

/-- R137: a later reset, from any state, abandons what was in progress and puts every element at its reset value (TXBUF and the pad's captured state
at draws), but keeps FAULT, REFUSED and HIST, and appends RESET. -/
def Obligations.LaterResetKeepsRecords : Prop :=
  ∀ (s : State) (rest : List Turn), s.sched = .reset :: rest →
    ∃ (buf : Bytes3) (load : Byte) (edges : Nat), edges ≤ 8 ∧
      step s = .next
        { State.reset with
          txbuf := buf
          pLoad := load
          nEdge := edges
          btn := s.btn
          faults := s.faults
          refused := s.refused
          hist := s.hist ++ [.reset]
          pulses := s.pulses
          params := s.params
          program := s.program
          sched := rest
          draws := s.draws + 1 }

/-- R138, V65, V67: from boot step 0 with no other agent's turn between, four atomic steps in order put the lines at rest with the indicator not lit, pulse
ENG_INIT, pulse ENG_ENABLE, and set IE_USB, and the pc is then (0, 0) of the hardwired program, whatever FAULT holds; the engine's ready flag is not
touched. -/
def Obligations.BootRunsFourSteps : Prop :=
  ∀ s : State, s.sched = [] → s.pc = .boot 0 →
    ∃ t1 t2 t3 t4, step s = .next t1 ∧ step t1 = .next t2 ∧ step t2 = .next t3 ∧ step t3 = .next t4 ∧
      (outLevel .nesLatch t1 = false ∧ outLevel .nesClk t1 = false ∧ outLevel .actLed t1 = !s.params.actLedLevel ∧
        t1.pulses = s.pulses ∧ t1.ieUsb = s.ieUsb ∧ t1.pc = .boot 1) ∧
      t2 = { t1 with pulses := s.pulses ++ [.engInit], pc := .boot 2 } ∧
      t3 = { t2 with pulses := s.pulses ++ [.engInit, .engEnable], pc := .boot 3 } ∧
      t4 = { t3 with ieUsb := true, program := .hardwired, pc := .run 0 0 } ∧
      outLevel .usbIe t4 = true ∧ fetch t4 = some 0xE0 ∧ t4.hist = s.hist ∧ t4.faults = s.faults ∧
      t4.refused = s.refused ∧ t4.last = s.last ∧ t4.now = s.now ∧ SameEngine s t4

/-! ## Invariants of every step -/

/-- R14, R29, R31, R34: BITCNT stays at most 8, NEDGE at most 8, and no stamp lies later than now, through every step of every agent. -/
def Obligations.StepKeepsRanges : Prop :=
  ∀ s t : State, InRange s → step s = .next t → InRange t

/-- R37: the ranges hold right after reset. -/
def Obligations.ResetInRange : Prop := InRange State.reset

/-- R49, R53, R54, R109: buffer atomicity. Through every step of every agent, the engine owns only a whole armed report, every packet it sent is the
report last armed, and TXBUF changes only with the engine held off. -/
def Obligations.StepKeepsBufferAtomic : Prop :=
  ∀ s t : State, BufferAtomic s → step s = .next t → BufferAtomic t

/-- R37: buffer atomicity holds right after reset. -/
def Obligations.ResetBufferAtomic : Prop := BufferAtomic State.reset

/-- R17, R99, R109: through every step of every agent, buffer atomicity holds, REPORT stays the report of RSTATE, and in the hardwired program the
report of LAST is the report of the most recent ARM event since reset (the zero report if there is none); in the window between the arm and
the COMMIT that follows it, RSTATE's is. An ARM event holds bytes, so states are compared through their reports here; the state itself is in
CommitLatchesArmedState. -/
def Obligations.StepKeepsHandOff : Prop :=
  ∀ s t : State, HandOff s → step s = .next t → HandOff t

/-- R37: the hand-off invariant holds right after reset. -/
def Obligations.ResetHandOff : Prop := HandOff State.reset

/-- R103, R107, R109: whatever step enqueues a report enqueues exactly one, the bytes of REPORT, which are the report of RSTATE. -/
def Obligations.ArmsCarryEncodedState : Prop :=
  ∀ s t : State, HandOff s → step s = .next t →
    arms t.hist = arms s.hist ∨
      (arms t.hist = arms s.hist ++ [s.report] ∧ s.report = reportOf s.rstate ∧ t.txbuf = s.report ∧ t.epInBusy = true)

/-- R27, R35, R36, R137: no step of any agent removes a fault, clears REFUSED, takes an event out of the history, or changes a parameter. -/
def Obligations.RecordsOnlyGrow : Prop :=
  ∀ s t : State, step s = .next t →
    s.faults <+: t.faults ∧ (∀ x, s.refused = some x → t.refused = some x) ∧ s.hist <+: t.hist ∧
      s.pulses <+: t.pulses ∧ t.params = s.params ∧ s.draws ≤ t.draws

/-- R31: time never decreases but at a reset, and no turn but the foreground's advances it. -/
def Obligations.TimeNeverDecreases : Prop :=
  ∀ s t : State, step s = .next t → s.sched.head? ≠ some .reset →
    s.now ≤ t.now ∧ (s.now < t.now → s.sched.head? = none ∨ s.sched.head? = some .foreground)

/-! ## The pad's output, the link's writers, and the state that COMMIT latches -/

/-- R70, R78: the level on NES_DATA. ABSENT_LEVEL with no controller; of a present pad the live A button while the latch is high, else the captured
button NEDGE, else FILL_BIT, each inverted when DATA is active low. -/
def Obligations.PadOutputLevels : Prop :=
  ∀ s : State, samplePort .nesData s =
    if s.params.padPresent = false then s.params.absentLevel
    else
      ((if s.latchQ = true then s.btn.getLsbD 0
        else if s.nEdge < 8 then s.pLoad.getLsbD s.nEdge
        else s.params.fillBit) ^^ decide (s.params.dataPolarity = .activeLow))

/-- R13 to R15, R26, R29, R31, R34: only the operations the spec lists write the Controller Link's elements and move the pad: SR and BITCNT only
LATCH_HI and SAMPLE, CUR only SAMPLE, the lines and their stamps only the line operations, LOAD_OK and CLK_OK only the line operations that
state them, P_LOAD only LATCH_LO, NEDGE only LATCH_LO and CLK_HI, now only WAIT (all of these also inside READ and ITER). -/
def Obligations.LinkSoleWriters : Prop :=
  ∀ (i : Instr) (s t : State), exec i s = .next t →
    (t.sr ≠ s.sr ∨ t.bitcnt ≠ s.bitcnt → i = .latchHi ∨ i = .sample ∨ i = .read ∨ i = .iter) ∧
    (t.cur ≠ s.cur → i = .sample ∨ i = .read ∨ i = .iter) ∧
    (t.latchQ ≠ s.latchQ → i = .latchHi ∨ i = .latchLo ∨ i = .read ∨ i = .iter) ∧
    (t.clkQ ≠ s.clkQ → i = .clkHi ∨ i = .clkLo ∨ i = .read ∨ i = .iter) ∧
    (t.tLatchRise ≠ s.tLatchRise → i = .latchHi ∨ i = .read ∨ i = .iter) ∧
    (t.tClkRise ≠ s.tClkRise → i = .clkHi ∨ i = .read ∨ i = .iter) ∧
    (t.tClkFall ≠ s.tClkFall → i = .clkLo ∨ i = .read ∨ i = .iter) ∧
    (t.loadOk ≠ s.loadOk → i = .latchHi ∨ i = .latchLo ∨ i = .clkHi ∨ i = .read ∨ i = .iter) ∧
    (t.clkOk ≠ s.clkOk → i = .latchLo ∨ i = .clkHi ∨ i = .clkLo ∨ i = .read ∨ i = .iter) ∧
    (t.pLoad ≠ s.pLoad → i = .latchLo ∨ i = .read ∨ i = .iter) ∧
    (t.nEdge ≠ s.nEdge → i = .latchLo ∨ i = .clkHi ∨ i = .read ∨ i = .iter) ∧
    (t.now ≠ s.now → (∃ n, i = .wait n) ∨ i = .read ∨ i = .iter)

/-- R98, R99, R107, R116: in the hardwired program LAST changes (a reset apart) only at ITER's COMMIT, to RSTATE; ITER comes to stand at its
COMMIT only by the step that arms TXBUF, which keeps RSTATE; and whatever turns of the engine and the environment come between, the COMMIT
then latches the RSTATE of that arm, with no other report armed. Where the hand-off invariant holds, the bytes armed are that state's report. -/
def Obligations.CommitLatchesArmedState : Prop :=
  (∀ s t : State, s.program = .hardwired → s.sched.head? ≠ some .reset → step s = .next t → t.last ≠ s.last →
    standsAt s = some .commitAndIdle ∧ t.last = s.rstate) ∧
  (∀ s t : State, s.program = .hardwired → step s = .next t →
    standsAt s ≠ some .commitAndIdle → standsAt t = some .commitAndIdle →
      standsAt s = some .sendArm ∧ arms t.hist = arms s.hist ++ [s.txbuf] ∧ t.rstate = s.rstate) ∧
  (∀ s : State, s.program = .hardwired → s.sched = [] → Safe s → standsAt s = some .sendArm →
    s.engReady = true → s.epInBusy = false →
      ∃ t, step s = .next t ∧ standsAt t = some .commitAndIdle ∧ arms t.hist = arms s.hist ++ [s.txbuf] ∧
        (HandOff s → s.txbuf = reportOf s.rstate) ∧
        ∀ turns : List Turn, (∀ turn ∈ turns, turn ≠ .foreground ∧ turn ≠ .reset) →
          ∃ u v, Host.Core.run core turns.length { t with sched := turns } = .next u ∧ u.sched = [] ∧
            step u = .next v ∧ v.last = s.rstate ∧ v.pc = .run 0 0 ∧ v.seqState = .idle ∧
            arms v.hist = arms s.hist ++ [s.txbuf])
end

