-- ==== Sys2Proof/Laws/State.lean ====
section
/-! SUPPORT. One lemma per field per update of the state, so that no proof unfolds a record update. -/

namespace Sys2Proof.Machine

variable (s : State)

/-! ### emit writes hist only -/

@[simp] theorem emit_sr (e : Event) : (emit e s).sr = s.sr := rfl
@[simp] theorem emit_bitcnt (e : Event) : (emit e s).bitcnt = s.bitcnt := rfl
@[simp] theorem emit_cur (e : Event) : (emit e s).cur = s.cur := rfl
@[simp] theorem emit_report (e : Event) : (emit e s).report = s.report := rfl
@[simp] theorem emit_rstate (e : Event) : (emit e s).rstate = s.rstate := rfl
@[simp] theorem emit_act (e : Event) : (emit e s).act = s.act := rfl
@[simp] theorem emit_last (e : Event) : (emit e s).last = s.last := rfl
@[simp] theorem emit_chg (e : Event) : (emit e s).chg = s.chg := rfl
@[simp] theorem emit_txbuf (e : Event) : (emit e s).txbuf = s.txbuf := rfl
@[simp] theorem emit_rdyEng (e : Event) : (emit e s).rdyEng = s.rdyEng := rfl
@[simp] theorem emit_rdyEp (e : Event) : (emit e s).rdyEp = s.rdyEp := rfl
@[simp] theorem emit_ieUsb (e : Event) : (emit e s).ieUsb = s.ieUsb := rfl
@[simp] theorem emit_csSave (e : Event) : (emit e s).csSave = s.csSave := rfl
@[simp] theorem emit_seqState (e : Event) : (emit e s).seqState = s.seqState := rfl
@[simp] theorem emit_latchQ (e : Event) : (emit e s).latchQ = s.latchQ := rfl
@[simp] theorem emit_clkQ (e : Event) : (emit e s).clkQ = s.clkQ := rfl
@[simp] theorem emit_faults (e : Event) : (emit e s).faults = s.faults := rfl
@[simp] theorem emit_refused (e : Event) : (emit e s).refused = s.refused := rfl
@[simp] theorem emit_pc (e : Event) : (emit e s).pc = s.pc := rfl
@[simp] theorem emit_tLatchRise (e : Event) : (emit e s).tLatchRise = s.tLatchRise := rfl
@[simp] theorem emit_tClkRise (e : Event) : (emit e s).tClkRise = s.tClkRise := rfl
@[simp] theorem emit_tClkFall (e : Event) : (emit e s).tClkFall = s.tClkFall := rfl
@[simp] theorem emit_loadOk (e : Event) : (emit e s).loadOk = s.loadOk := rfl
@[simp] theorem emit_clkOk (e : Event) : (emit e s).clkOk = s.clkOk := rfl
@[simp] theorem emit_now (e : Event) : (emit e s).now = s.now := rfl
@[simp] theorem emit_hist (e : Event) : (emit e s).hist = s.hist ++ [e] := rfl
@[simp] theorem emit_engReady (e : Event) : (emit e s).engReady = s.engReady := rfl
@[simp] theorem emit_epInBusy (e : Event) : (emit e s).epInBusy = s.epInBusy := rfl
@[simp] theorem emit_outPending (e : Event) : (emit e s).outPending = s.outPending := rfl
@[simp] theorem emit_usbIrq (e : Event) : (emit e s).usbIrq = s.usbIrq := rfl
@[simp] theorem emit_btn (e : Event) : (emit e s).btn = s.btn := rfl
@[simp] theorem emit_pLoad (e : Event) : (emit e s).pLoad = s.pLoad := rfl
@[simp] theorem emit_nEdge (e : Event) : (emit e s).nEdge = s.nEdge := rfl
@[simp] theorem emit_pulses (e : Event) : (emit e s).pulses = s.pulses := rfl
@[simp] theorem emit_params (e : Event) : (emit e s).params = s.params := rfl
@[simp] theorem emit_program (e : Event) : (emit e s).program = s.program := rfl
@[simp] theorem emit_sched (e : Event) : (emit e s).sched = s.sched := rfl
@[simp] theorem emit_draws (e : Event) : (emit e s).draws = s.draws := rfl

/-! ### pulse writes pulses only -/

@[simp] theorem pulse_sr (p : Pulse) : (pulse p s).sr = s.sr := rfl
@[simp] theorem pulse_bitcnt (p : Pulse) : (pulse p s).bitcnt = s.bitcnt := rfl
@[simp] theorem pulse_cur (p : Pulse) : (pulse p s).cur = s.cur := rfl
@[simp] theorem pulse_report (p : Pulse) : (pulse p s).report = s.report := rfl
@[simp] theorem pulse_rstate (p : Pulse) : (pulse p s).rstate = s.rstate := rfl
@[simp] theorem pulse_act (p : Pulse) : (pulse p s).act = s.act := rfl
@[simp] theorem pulse_last (p : Pulse) : (pulse p s).last = s.last := rfl
@[simp] theorem pulse_chg (p : Pulse) : (pulse p s).chg = s.chg := rfl
@[simp] theorem pulse_txbuf (p : Pulse) : (pulse p s).txbuf = s.txbuf := rfl
@[simp] theorem pulse_rdyEng (p : Pulse) : (pulse p s).rdyEng = s.rdyEng := rfl
@[simp] theorem pulse_rdyEp (p : Pulse) : (pulse p s).rdyEp = s.rdyEp := rfl
@[simp] theorem pulse_ieUsb (p : Pulse) : (pulse p s).ieUsb = s.ieUsb := rfl
@[simp] theorem pulse_csSave (p : Pulse) : (pulse p s).csSave = s.csSave := rfl
@[simp] theorem pulse_seqState (p : Pulse) : (pulse p s).seqState = s.seqState := rfl
@[simp] theorem pulse_latchQ (p : Pulse) : (pulse p s).latchQ = s.latchQ := rfl
@[simp] theorem pulse_clkQ (p : Pulse) : (pulse p s).clkQ = s.clkQ := rfl
@[simp] theorem pulse_faults (p : Pulse) : (pulse p s).faults = s.faults := rfl
@[simp] theorem pulse_refused (p : Pulse) : (pulse p s).refused = s.refused := rfl
@[simp] theorem pulse_pc (p : Pulse) : (pulse p s).pc = s.pc := rfl
@[simp] theorem pulse_tLatchRise (p : Pulse) : (pulse p s).tLatchRise = s.tLatchRise := rfl
@[simp] theorem pulse_tClkRise (p : Pulse) : (pulse p s).tClkRise = s.tClkRise := rfl
@[simp] theorem pulse_tClkFall (p : Pulse) : (pulse p s).tClkFall = s.tClkFall := rfl
@[simp] theorem pulse_loadOk (p : Pulse) : (pulse p s).loadOk = s.loadOk := rfl
@[simp] theorem pulse_clkOk (p : Pulse) : (pulse p s).clkOk = s.clkOk := rfl
@[simp] theorem pulse_now (p : Pulse) : (pulse p s).now = s.now := rfl
@[simp] theorem pulse_hist (p : Pulse) : (pulse p s).hist = s.hist := rfl
@[simp] theorem pulse_engReady (p : Pulse) : (pulse p s).engReady = s.engReady := rfl
@[simp] theorem pulse_epInBusy (p : Pulse) : (pulse p s).epInBusy = s.epInBusy := rfl
@[simp] theorem pulse_outPending (p : Pulse) : (pulse p s).outPending = s.outPending := rfl
@[simp] theorem pulse_usbIrq (p : Pulse) : (pulse p s).usbIrq = s.usbIrq := rfl
@[simp] theorem pulse_btn (p : Pulse) : (pulse p s).btn = s.btn := rfl
@[simp] theorem pulse_pLoad (p : Pulse) : (pulse p s).pLoad = s.pLoad := rfl
@[simp] theorem pulse_nEdge (p : Pulse) : (pulse p s).nEdge = s.nEdge := rfl
@[simp] theorem pulse_pulses (p : Pulse) : (pulse p s).pulses = s.pulses ++ [p] := rfl
@[simp] theorem pulse_params (p : Pulse) : (pulse p s).params = s.params := rfl
@[simp] theorem pulse_program (p : Pulse) : (pulse p s).program = s.program := rfl
@[simp] theorem pulse_sched (p : Pulse) : (pulse p s).sched = s.sched := rfl
@[simp] theorem pulse_draws (p : Pulse) : (pulse p s).draws = s.draws := rfl

/-! ### advance writes now only -/

@[simp] theorem advance_sr (n : Nat) : (advance n s).sr = s.sr := rfl
@[simp] theorem advance_bitcnt (n : Nat) : (advance n s).bitcnt = s.bitcnt := rfl
@[simp] theorem advance_cur (n : Nat) : (advance n s).cur = s.cur := rfl
@[simp] theorem advance_report (n : Nat) : (advance n s).report = s.report := rfl
@[simp] theorem advance_rstate (n : Nat) : (advance n s).rstate = s.rstate := rfl
@[simp] theorem advance_act (n : Nat) : (advance n s).act = s.act := rfl
@[simp] theorem advance_last (n : Nat) : (advance n s).last = s.last := rfl
@[simp] theorem advance_chg (n : Nat) : (advance n s).chg = s.chg := rfl
@[simp] theorem advance_txbuf (n : Nat) : (advance n s).txbuf = s.txbuf := rfl
@[simp] theorem advance_rdyEng (n : Nat) : (advance n s).rdyEng = s.rdyEng := rfl
@[simp] theorem advance_rdyEp (n : Nat) : (advance n s).rdyEp = s.rdyEp := rfl
@[simp] theorem advance_ieUsb (n : Nat) : (advance n s).ieUsb = s.ieUsb := rfl
@[simp] theorem advance_csSave (n : Nat) : (advance n s).csSave = s.csSave := rfl
@[simp] theorem advance_seqState (n : Nat) : (advance n s).seqState = s.seqState := rfl
@[simp] theorem advance_latchQ (n : Nat) : (advance n s).latchQ = s.latchQ := rfl
@[simp] theorem advance_clkQ (n : Nat) : (advance n s).clkQ = s.clkQ := rfl
@[simp] theorem advance_faults (n : Nat) : (advance n s).faults = s.faults := rfl
@[simp] theorem advance_refused (n : Nat) : (advance n s).refused = s.refused := rfl
@[simp] theorem advance_pc (n : Nat) : (advance n s).pc = s.pc := rfl
@[simp] theorem advance_tLatchRise (n : Nat) : (advance n s).tLatchRise = s.tLatchRise := rfl
@[simp] theorem advance_tClkRise (n : Nat) : (advance n s).tClkRise = s.tClkRise := rfl
@[simp] theorem advance_tClkFall (n : Nat) : (advance n s).tClkFall = s.tClkFall := rfl
@[simp] theorem advance_loadOk (n : Nat) : (advance n s).loadOk = s.loadOk := rfl
@[simp] theorem advance_clkOk (n : Nat) : (advance n s).clkOk = s.clkOk := rfl
@[simp] theorem advance_now (n : Nat) : (advance n s).now = s.now + n := rfl
@[simp] theorem advance_hist (n : Nat) : (advance n s).hist = s.hist := rfl
@[simp] theorem advance_engReady (n : Nat) : (advance n s).engReady = s.engReady := rfl
@[simp] theorem advance_epInBusy (n : Nat) : (advance n s).epInBusy = s.epInBusy := rfl
@[simp] theorem advance_outPending (n : Nat) : (advance n s).outPending = s.outPending := rfl
@[simp] theorem advance_usbIrq (n : Nat) : (advance n s).usbIrq = s.usbIrq := rfl
@[simp] theorem advance_btn (n : Nat) : (advance n s).btn = s.btn := rfl
@[simp] theorem advance_pLoad (n : Nat) : (advance n s).pLoad = s.pLoad := rfl
@[simp] theorem advance_nEdge (n : Nat) : (advance n s).nEdge = s.nEdge := rfl
@[simp] theorem advance_pulses (n : Nat) : (advance n s).pulses = s.pulses := rfl
@[simp] theorem advance_params (n : Nat) : (advance n s).params = s.params := rfl
@[simp] theorem advance_program (n : Nat) : (advance n s).program = s.program := rfl
@[simp] theorem advance_sched (n : Nat) : (advance n s).sched = s.sched := rfl
@[simp] theorem advance_draws (n : Nat) : (advance n s).draws = s.draws := rfl

/-! ### setPc writes pc only -/

@[simp] theorem setPc_sr (p : PC) : (setPc p s).sr = s.sr := rfl
@[simp] theorem setPc_bitcnt (p : PC) : (setPc p s).bitcnt = s.bitcnt := rfl
@[simp] theorem setPc_cur (p : PC) : (setPc p s).cur = s.cur := rfl
@[simp] theorem setPc_report (p : PC) : (setPc p s).report = s.report := rfl
@[simp] theorem setPc_rstate (p : PC) : (setPc p s).rstate = s.rstate := rfl
@[simp] theorem setPc_act (p : PC) : (setPc p s).act = s.act := rfl
@[simp] theorem setPc_last (p : PC) : (setPc p s).last = s.last := rfl
@[simp] theorem setPc_chg (p : PC) : (setPc p s).chg = s.chg := rfl
@[simp] theorem setPc_txbuf (p : PC) : (setPc p s).txbuf = s.txbuf := rfl
@[simp] theorem setPc_rdyEng (p : PC) : (setPc p s).rdyEng = s.rdyEng := rfl
@[simp] theorem setPc_rdyEp (p : PC) : (setPc p s).rdyEp = s.rdyEp := rfl
@[simp] theorem setPc_ieUsb (p : PC) : (setPc p s).ieUsb = s.ieUsb := rfl
@[simp] theorem setPc_csSave (p : PC) : (setPc p s).csSave = s.csSave := rfl
@[simp] theorem setPc_seqState (p : PC) : (setPc p s).seqState = s.seqState := rfl
@[simp] theorem setPc_latchQ (p : PC) : (setPc p s).latchQ = s.latchQ := rfl
@[simp] theorem setPc_clkQ (p : PC) : (setPc p s).clkQ = s.clkQ := rfl
@[simp] theorem setPc_faults (p : PC) : (setPc p s).faults = s.faults := rfl
@[simp] theorem setPc_refused (p : PC) : (setPc p s).refused = s.refused := rfl
@[simp] theorem setPc_pc (p : PC) : (setPc p s).pc = p := rfl
@[simp] theorem setPc_tLatchRise (p : PC) : (setPc p s).tLatchRise = s.tLatchRise := rfl
@[simp] theorem setPc_tClkRise (p : PC) : (setPc p s).tClkRise = s.tClkRise := rfl
@[simp] theorem setPc_tClkFall (p : PC) : (setPc p s).tClkFall = s.tClkFall := rfl
@[simp] theorem setPc_loadOk (p : PC) : (setPc p s).loadOk = s.loadOk := rfl
@[simp] theorem setPc_clkOk (p : PC) : (setPc p s).clkOk = s.clkOk := rfl
@[simp] theorem setPc_now (p : PC) : (setPc p s).now = s.now := rfl
@[simp] theorem setPc_hist (p : PC) : (setPc p s).hist = s.hist := rfl
@[simp] theorem setPc_engReady (p : PC) : (setPc p s).engReady = s.engReady := rfl
@[simp] theorem setPc_epInBusy (p : PC) : (setPc p s).epInBusy = s.epInBusy := rfl
@[simp] theorem setPc_outPending (p : PC) : (setPc p s).outPending = s.outPending := rfl
@[simp] theorem setPc_usbIrq (p : PC) : (setPc p s).usbIrq = s.usbIrq := rfl
@[simp] theorem setPc_btn (p : PC) : (setPc p s).btn = s.btn := rfl
@[simp] theorem setPc_pLoad (p : PC) : (setPc p s).pLoad = s.pLoad := rfl
@[simp] theorem setPc_nEdge (p : PC) : (setPc p s).nEdge = s.nEdge := rfl
@[simp] theorem setPc_pulses (p : PC) : (setPc p s).pulses = s.pulses := rfl
@[simp] theorem setPc_params (p : PC) : (setPc p s).params = s.params := rfl
@[simp] theorem setPc_program (p : PC) : (setPc p s).program = s.program := rfl
@[simp] theorem setPc_sched (p : PC) : (setPc p s).sched = s.sched := rfl
@[simp] theorem setPc_draws (p : PC) : (setPc p s).draws = s.draws := rfl

/-! ### raiseFault writes faults only -/

@[simp] theorem raiseFault_sr (r : FaultRecord) : (raiseFault r s).sr = s.sr := rfl
@[simp] theorem raiseFault_bitcnt (r : FaultRecord) : (raiseFault r s).bitcnt = s.bitcnt := rfl
@[simp] theorem raiseFault_cur (r : FaultRecord) : (raiseFault r s).cur = s.cur := rfl
@[simp] theorem raiseFault_report (r : FaultRecord) : (raiseFault r s).report = s.report := rfl
@[simp] theorem raiseFault_rstate (r : FaultRecord) : (raiseFault r s).rstate = s.rstate := rfl
@[simp] theorem raiseFault_act (r : FaultRecord) : (raiseFault r s).act = s.act := rfl
@[simp] theorem raiseFault_last (r : FaultRecord) : (raiseFault r s).last = s.last := rfl
@[simp] theorem raiseFault_chg (r : FaultRecord) : (raiseFault r s).chg = s.chg := rfl
@[simp] theorem raiseFault_txbuf (r : FaultRecord) : (raiseFault r s).txbuf = s.txbuf := rfl
@[simp] theorem raiseFault_rdyEng (r : FaultRecord) : (raiseFault r s).rdyEng = s.rdyEng := rfl
@[simp] theorem raiseFault_rdyEp (r : FaultRecord) : (raiseFault r s).rdyEp = s.rdyEp := rfl
@[simp] theorem raiseFault_ieUsb (r : FaultRecord) : (raiseFault r s).ieUsb = s.ieUsb := rfl
@[simp] theorem raiseFault_csSave (r : FaultRecord) : (raiseFault r s).csSave = s.csSave := rfl
@[simp] theorem raiseFault_seqState (r : FaultRecord) : (raiseFault r s).seqState = s.seqState := rfl
@[simp] theorem raiseFault_latchQ (r : FaultRecord) : (raiseFault r s).latchQ = s.latchQ := rfl
@[simp] theorem raiseFault_clkQ (r : FaultRecord) : (raiseFault r s).clkQ = s.clkQ := rfl
@[simp] theorem raiseFault_faults (r : FaultRecord) : (raiseFault r s).faults = s.faults ++ [r] := rfl
@[simp] theorem raiseFault_refused (r : FaultRecord) : (raiseFault r s).refused = s.refused := rfl
@[simp] theorem raiseFault_pc (r : FaultRecord) : (raiseFault r s).pc = s.pc := rfl
@[simp] theorem raiseFault_tLatchRise (r : FaultRecord) : (raiseFault r s).tLatchRise = s.tLatchRise := rfl
@[simp] theorem raiseFault_tClkRise (r : FaultRecord) : (raiseFault r s).tClkRise = s.tClkRise := rfl
@[simp] theorem raiseFault_tClkFall (r : FaultRecord) : (raiseFault r s).tClkFall = s.tClkFall := rfl
@[simp] theorem raiseFault_loadOk (r : FaultRecord) : (raiseFault r s).loadOk = s.loadOk := rfl
@[simp] theorem raiseFault_clkOk (r : FaultRecord) : (raiseFault r s).clkOk = s.clkOk := rfl
@[simp] theorem raiseFault_now (r : FaultRecord) : (raiseFault r s).now = s.now := rfl
@[simp] theorem raiseFault_hist (r : FaultRecord) : (raiseFault r s).hist = s.hist := rfl
@[simp] theorem raiseFault_engReady (r : FaultRecord) : (raiseFault r s).engReady = s.engReady := rfl
@[simp] theorem raiseFault_epInBusy (r : FaultRecord) : (raiseFault r s).epInBusy = s.epInBusy := rfl
@[simp] theorem raiseFault_outPending (r : FaultRecord) : (raiseFault r s).outPending = s.outPending := rfl
@[simp] theorem raiseFault_usbIrq (r : FaultRecord) : (raiseFault r s).usbIrq = s.usbIrq := rfl
@[simp] theorem raiseFault_btn (r : FaultRecord) : (raiseFault r s).btn = s.btn := rfl
@[simp] theorem raiseFault_pLoad (r : FaultRecord) : (raiseFault r s).pLoad = s.pLoad := rfl
@[simp] theorem raiseFault_nEdge (r : FaultRecord) : (raiseFault r s).nEdge = s.nEdge := rfl
@[simp] theorem raiseFault_pulses (r : FaultRecord) : (raiseFault r s).pulses = s.pulses := rfl
@[simp] theorem raiseFault_params (r : FaultRecord) : (raiseFault r s).params = s.params := rfl
@[simp] theorem raiseFault_program (r : FaultRecord) : (raiseFault r s).program = s.program := rfl
@[simp] theorem raiseFault_sched (r : FaultRecord) : (raiseFault r s).sched = s.sched := rfl
@[simp] theorem raiseFault_draws (r : FaultRecord) : (raiseFault r s).draws = s.draws := rfl

/-! ### padCapture writes pLoad and nEdge only -/

@[simp] theorem padCapture_sr : (padCapture s).sr = s.sr := by unfold padCapture; split <;> rfl
@[simp] theorem padCapture_bitcnt : (padCapture s).bitcnt = s.bitcnt := by unfold padCapture; split <;> rfl
@[simp] theorem padCapture_cur : (padCapture s).cur = s.cur := by unfold padCapture; split <;> rfl
@[simp] theorem padCapture_report : (padCapture s).report = s.report := by unfold padCapture; split <;> rfl
@[simp] theorem padCapture_rstate : (padCapture s).rstate = s.rstate := by unfold padCapture; split <;> rfl
@[simp] theorem padCapture_act : (padCapture s).act = s.act := by unfold padCapture; split <;> rfl
@[simp] theorem padCapture_last : (padCapture s).last = s.last := by unfold padCapture; split <;> rfl
@[simp] theorem padCapture_chg : (padCapture s).chg = s.chg := by unfold padCapture; split <;> rfl
@[simp] theorem padCapture_txbuf : (padCapture s).txbuf = s.txbuf := by unfold padCapture; split <;> rfl
@[simp] theorem padCapture_rdyEng : (padCapture s).rdyEng = s.rdyEng := by unfold padCapture; split <;> rfl
@[simp] theorem padCapture_rdyEp : (padCapture s).rdyEp = s.rdyEp := by unfold padCapture; split <;> rfl
@[simp] theorem padCapture_ieUsb : (padCapture s).ieUsb = s.ieUsb := by unfold padCapture; split <;> rfl
@[simp] theorem padCapture_csSave : (padCapture s).csSave = s.csSave := by unfold padCapture; split <;> rfl
@[simp] theorem padCapture_seqState : (padCapture s).seqState = s.seqState := by unfold padCapture; split <;> rfl
@[simp] theorem padCapture_latchQ : (padCapture s).latchQ = s.latchQ := by unfold padCapture; split <;> rfl
@[simp] theorem padCapture_clkQ : (padCapture s).clkQ = s.clkQ := by unfold padCapture; split <;> rfl
@[simp] theorem padCapture_faults : (padCapture s).faults = s.faults := by unfold padCapture; split <;> rfl
@[simp] theorem padCapture_refused : (padCapture s).refused = s.refused := by unfold padCapture; split <;> rfl
@[simp] theorem padCapture_pc : (padCapture s).pc = s.pc := by unfold padCapture; split <;> rfl
@[simp] theorem padCapture_tLatchRise : (padCapture s).tLatchRise = s.tLatchRise := by unfold padCapture; split <;> rfl
@[simp] theorem padCapture_tClkRise : (padCapture s).tClkRise = s.tClkRise := by unfold padCapture; split <;> rfl
@[simp] theorem padCapture_tClkFall : (padCapture s).tClkFall = s.tClkFall := by unfold padCapture; split <;> rfl
@[simp] theorem padCapture_loadOk : (padCapture s).loadOk = s.loadOk := by unfold padCapture; split <;> rfl
@[simp] theorem padCapture_clkOk : (padCapture s).clkOk = s.clkOk := by unfold padCapture; split <;> rfl
@[simp] theorem padCapture_now : (padCapture s).now = s.now := by unfold padCapture; split <;> rfl
@[simp] theorem padCapture_hist : (padCapture s).hist = s.hist := by unfold padCapture; split <;> rfl
@[simp] theorem padCapture_engReady : (padCapture s).engReady = s.engReady := by unfold padCapture; split <;> rfl
@[simp] theorem padCapture_epInBusy : (padCapture s).epInBusy = s.epInBusy := by unfold padCapture; split <;> rfl
@[simp] theorem padCapture_outPending : (padCapture s).outPending = s.outPending := by unfold padCapture; split <;> rfl
@[simp] theorem padCapture_usbIrq : (padCapture s).usbIrq = s.usbIrq := by unfold padCapture; split <;> rfl
@[simp] theorem padCapture_btn : (padCapture s).btn = s.btn := by unfold padCapture; split <;> rfl
@[simp] theorem padCapture_pulses : (padCapture s).pulses = s.pulses := by unfold padCapture; split <;> rfl
@[simp] theorem padCapture_params : (padCapture s).params = s.params := by unfold padCapture; split <;> rfl
@[simp] theorem padCapture_program : (padCapture s).program = s.program := by unfold padCapture; split <;> rfl
@[simp] theorem padCapture_sched : (padCapture s).sched = s.sched := by unfold padCapture; split <;> rfl
@[simp] theorem padCapture_draws : (padCapture s).draws = s.draws := by unfold padCapture; split <;> rfl

/-! ### padShift writes nEdge only -/

@[simp] theorem padShift_sr : (padShift s).sr = s.sr := by unfold padShift; split <;> rfl
@[simp] theorem padShift_bitcnt : (padShift s).bitcnt = s.bitcnt := by unfold padShift; split <;> rfl
@[simp] theorem padShift_cur : (padShift s).cur = s.cur := by unfold padShift; split <;> rfl
@[simp] theorem padShift_report : (padShift s).report = s.report := by unfold padShift; split <;> rfl
@[simp] theorem padShift_rstate : (padShift s).rstate = s.rstate := by unfold padShift; split <;> rfl
@[simp] theorem padShift_act : (padShift s).act = s.act := by unfold padShift; split <;> rfl
@[simp] theorem padShift_last : (padShift s).last = s.last := by unfold padShift; split <;> rfl
@[simp] theorem padShift_chg : (padShift s).chg = s.chg := by unfold padShift; split <;> rfl
@[simp] theorem padShift_txbuf : (padShift s).txbuf = s.txbuf := by unfold padShift; split <;> rfl
@[simp] theorem padShift_rdyEng : (padShift s).rdyEng = s.rdyEng := by unfold padShift; split <;> rfl
@[simp] theorem padShift_rdyEp : (padShift s).rdyEp = s.rdyEp := by unfold padShift; split <;> rfl
@[simp] theorem padShift_ieUsb : (padShift s).ieUsb = s.ieUsb := by unfold padShift; split <;> rfl
@[simp] theorem padShift_csSave : (padShift s).csSave = s.csSave := by unfold padShift; split <;> rfl
@[simp] theorem padShift_seqState : (padShift s).seqState = s.seqState := by unfold padShift; split <;> rfl
@[simp] theorem padShift_latchQ : (padShift s).latchQ = s.latchQ := by unfold padShift; split <;> rfl
@[simp] theorem padShift_clkQ : (padShift s).clkQ = s.clkQ := by unfold padShift; split <;> rfl
@[simp] theorem padShift_faults : (padShift s).faults = s.faults := by unfold padShift; split <;> rfl
@[simp] theorem padShift_refused : (padShift s).refused = s.refused := by unfold padShift; split <;> rfl
@[simp] theorem padShift_pc : (padShift s).pc = s.pc := by unfold padShift; split <;> rfl
@[simp] theorem padShift_tLatchRise : (padShift s).tLatchRise = s.tLatchRise := by unfold padShift; split <;> rfl
@[simp] theorem padShift_tClkRise : (padShift s).tClkRise = s.tClkRise := by unfold padShift; split <;> rfl
@[simp] theorem padShift_tClkFall : (padShift s).tClkFall = s.tClkFall := by unfold padShift; split <;> rfl
@[simp] theorem padShift_loadOk : (padShift s).loadOk = s.loadOk := by unfold padShift; split <;> rfl
@[simp] theorem padShift_clkOk : (padShift s).clkOk = s.clkOk := by unfold padShift; split <;> rfl
@[simp] theorem padShift_now : (padShift s).now = s.now := by unfold padShift; split <;> rfl
@[simp] theorem padShift_hist : (padShift s).hist = s.hist := by unfold padShift; split <;> rfl
@[simp] theorem padShift_engReady : (padShift s).engReady = s.engReady := by unfold padShift; split <;> rfl
@[simp] theorem padShift_epInBusy : (padShift s).epInBusy = s.epInBusy := by unfold padShift; split <;> rfl
@[simp] theorem padShift_outPending : (padShift s).outPending = s.outPending := by unfold padShift; split <;> rfl
@[simp] theorem padShift_usbIrq : (padShift s).usbIrq = s.usbIrq := by unfold padShift; split <;> rfl
@[simp] theorem padShift_btn : (padShift s).btn = s.btn := by unfold padShift; split <;> rfl
@[simp] theorem padShift_pLoad : (padShift s).pLoad = s.pLoad := by unfold padShift; split <;> rfl
@[simp] theorem padShift_pulses : (padShift s).pulses = s.pulses := by unfold padShift; split <;> rfl
@[simp] theorem padShift_params : (padShift s).params = s.params := by unfold padShift; split <;> rfl
@[simp] theorem padShift_program : (padShift s).program = s.program := by unfold padShift; split <;> rfl
@[simp] theorem padShift_sched : (padShift s).sched = s.sched := by unfold padShift; split <;> rfl
@[simp] theorem padShift_draws : (padShift s).draws = s.draws := by unfold padShift; split <;> rfl

@[simp] theorem padCapture_pLoad : (padCapture s).pLoad = if s.params.padPresent then s.btn else s.pLoad := by
  unfold padCapture; split <;> rfl
@[simp] theorem padCapture_nEdge : (padCapture s).nEdge = if s.params.padPresent then 0 else s.nEdge := by
  unfold padCapture; split <;> rfl
@[simp] theorem padShift_nEdge :
    (padShift s).nEdge = if s.params.padPresent && !s.latchQ then min (s.nEdge + 1) 8 else s.nEdge := by
  unfold padShift; split <;> rfl

/-! ### refuseInput writes refused only -/

@[simp] theorem refuseInput_sr (x : RefusedInput) : (refuseInput x s).sr = s.sr := by unfold refuseInput; split <;> rfl
@[simp] theorem refuseInput_bitcnt (x : RefusedInput) : (refuseInput x s).bitcnt = s.bitcnt := by unfold refuseInput; split <;> rfl
@[simp] theorem refuseInput_cur (x : RefusedInput) : (refuseInput x s).cur = s.cur := by unfold refuseInput; split <;> rfl
@[simp] theorem refuseInput_report (x : RefusedInput) : (refuseInput x s).report = s.report := by unfold refuseInput; split <;> rfl
@[simp] theorem refuseInput_rstate (x : RefusedInput) : (refuseInput x s).rstate = s.rstate := by unfold refuseInput; split <;> rfl
@[simp] theorem refuseInput_act (x : RefusedInput) : (refuseInput x s).act = s.act := by unfold refuseInput; split <;> rfl
@[simp] theorem refuseInput_last (x : RefusedInput) : (refuseInput x s).last = s.last := by unfold refuseInput; split <;> rfl
@[simp] theorem refuseInput_chg (x : RefusedInput) : (refuseInput x s).chg = s.chg := by unfold refuseInput; split <;> rfl
@[simp] theorem refuseInput_txbuf (x : RefusedInput) : (refuseInput x s).txbuf = s.txbuf := by unfold refuseInput; split <;> rfl
@[simp] theorem refuseInput_rdyEng (x : RefusedInput) : (refuseInput x s).rdyEng = s.rdyEng := by unfold refuseInput; split <;> rfl
@[simp] theorem refuseInput_rdyEp (x : RefusedInput) : (refuseInput x s).rdyEp = s.rdyEp := by unfold refuseInput; split <;> rfl
@[simp] theorem refuseInput_ieUsb (x : RefusedInput) : (refuseInput x s).ieUsb = s.ieUsb := by unfold refuseInput; split <;> rfl
@[simp] theorem refuseInput_csSave (x : RefusedInput) : (refuseInput x s).csSave = s.csSave := by unfold refuseInput; split <;> rfl
@[simp] theorem refuseInput_seqState (x : RefusedInput) : (refuseInput x s).seqState = s.seqState := by unfold refuseInput; split <;> rfl
@[simp] theorem refuseInput_latchQ (x : RefusedInput) : (refuseInput x s).latchQ = s.latchQ := by unfold refuseInput; split <;> rfl
@[simp] theorem refuseInput_clkQ (x : RefusedInput) : (refuseInput x s).clkQ = s.clkQ := by unfold refuseInput; split <;> rfl
@[simp] theorem refuseInput_faults (x : RefusedInput) : (refuseInput x s).faults = s.faults := by unfold refuseInput; split <;> rfl
@[simp] theorem refuseInput_pc (x : RefusedInput) : (refuseInput x s).pc = s.pc := by unfold refuseInput; split <;> rfl
@[simp] theorem refuseInput_tLatchRise (x : RefusedInput) : (refuseInput x s).tLatchRise = s.tLatchRise := by unfold refuseInput; split <;> rfl
@[simp] theorem refuseInput_tClkRise (x : RefusedInput) : (refuseInput x s).tClkRise = s.tClkRise := by unfold refuseInput; split <;> rfl
@[simp] theorem refuseInput_tClkFall (x : RefusedInput) : (refuseInput x s).tClkFall = s.tClkFall := by unfold refuseInput; split <;> rfl
@[simp] theorem refuseInput_loadOk (x : RefusedInput) : (refuseInput x s).loadOk = s.loadOk := by unfold refuseInput; split <;> rfl
@[simp] theorem refuseInput_clkOk (x : RefusedInput) : (refuseInput x s).clkOk = s.clkOk := by unfold refuseInput; split <;> rfl
@[simp] theorem refuseInput_now (x : RefusedInput) : (refuseInput x s).now = s.now := by unfold refuseInput; split <;> rfl
@[simp] theorem refuseInput_hist (x : RefusedInput) : (refuseInput x s).hist = s.hist := by unfold refuseInput; split <;> rfl
@[simp] theorem refuseInput_engReady (x : RefusedInput) : (refuseInput x s).engReady = s.engReady := by unfold refuseInput; split <;> rfl
@[simp] theorem refuseInput_epInBusy (x : RefusedInput) : (refuseInput x s).epInBusy = s.epInBusy := by unfold refuseInput; split <;> rfl
@[simp] theorem refuseInput_outPending (x : RefusedInput) : (refuseInput x s).outPending = s.outPending := by unfold refuseInput; split <;> rfl
@[simp] theorem refuseInput_usbIrq (x : RefusedInput) : (refuseInput x s).usbIrq = s.usbIrq := by unfold refuseInput; split <;> rfl
@[simp] theorem refuseInput_btn (x : RefusedInput) : (refuseInput x s).btn = s.btn := by unfold refuseInput; split <;> rfl
@[simp] theorem refuseInput_pLoad (x : RefusedInput) : (refuseInput x s).pLoad = s.pLoad := by unfold refuseInput; split <;> rfl
@[simp] theorem refuseInput_nEdge (x : RefusedInput) : (refuseInput x s).nEdge = s.nEdge := by unfold refuseInput; split <;> rfl
@[simp] theorem refuseInput_pulses (x : RefusedInput) : (refuseInput x s).pulses = s.pulses := by unfold refuseInput; split <;> rfl
@[simp] theorem refuseInput_params (x : RefusedInput) : (refuseInput x s).params = s.params := by unfold refuseInput; split <;> rfl
@[simp] theorem refuseInput_program (x : RefusedInput) : (refuseInput x s).program = s.program := by unfold refuseInput; split <;> rfl
@[simp] theorem refuseInput_sched (x : RefusedInput) : (refuseInput x s).sched = s.sched := by unfold refuseInput; split <;> rfl
@[simp] theorem refuseInput_draws (x : RefusedInput) : (refuseInput x s).draws = s.draws := by unfold refuseInput; split <;> rfl

/-- Once REFUSED is set it stays as it was (R27). -/
theorem refuseInput_refused (x : RefusedInput) : (refuseInput x s).refused = s.refused.or (some x) := by
  unfold refuseInput; cases h : s.refused <;> simp [h]

end Sys2Proof.Machine
end

