-- ==== Sys2Proof/Laws/Ops.lean ====
section
/-! SUPPORT. What each shared operation can do, said once: byte access, how an atomic step ends, plans, bits and polarity. -/

namespace Sys2Proof.Machine

/-- recordHalt touches FAULT and REFUSED only (R63, R121). -/
theorem recordHalt_eq (h : Halt) (s : State) :
    recordHalt h s = { s with faults := (recordHalt h s).faults, refused := (recordHalt h s).refused } := by
  cases h with
  | fault r => rfl
  | refuse x =>
    unfold recordHalt refuseInput
    cases hr : s.refused with
    | none => rfl
    | some y => simp only [hr]; rw [← hr]

theorem recordHalt_faults_prefix (h : Halt) (s : State) : s.faults <+: (recordHalt h s).faults := by
  cases h <;> simp [recordHalt]

theorem recordHalt_keeps_refused (h : Halt) (s : State) (x : RefusedInput) (hx : s.refused = some x) :
    (recordHalt h s).refused = some x := by
  cases h <;> simp [recordHalt, refuseInput_refused, hx]

/-- An atomic step that ends with a next state either took effect or recorded what halted it. -/
theorem settle_next {r : Except Halt State} {p : PC} {s t : State} :
    settle r p s = .next t ↔ (∃ u, r = .ok u ∧ t = setPc p u) ∨ (∃ h, r = .error h ∧ t = recordHalt h s) := by
  cases r <;> simp [settle, eq_comm]

/-- Every atomic step of an operation answers a next state. -/
theorem settle_answers (r : Except Halt State) (p : PC) (s : State) : ∃ t, settle r p s = .next t := by
  cases r <;> exact ⟨_, rfl⟩

@[simp] theorem settle_ok (u : State) (p : PC) (s : State) : settle (.ok u) p s = .next (setPc p u) := rfl

@[simp] theorem settle_error (h : Halt) (p : PC) (s : State) : settle (.error h) p s = .next (recordHalt h s) := rfl

/-- A one-step operation at sub 0 is its effect (R74). -/
theorem single_at {r : Except Halt State} {s : State} {idx : Nat} (h : s.pc = .run idx 0) :
    single r s = settle r (.run (idx + 1) 0) s := by
  simp [single, h]

/-- A one-step operation answers a next state only at sub 0. -/
theorem single_next {r : Except Halt State} {s t : State} (h : single r s = .next t) :
    ∃ idx, s.pc = .run idx 0 ∧ settle r (.run (idx + 1) 0) s = .next t := by
  unfold single at h
  split at h
  · exact ⟨_, ‹_›, h⟩
  · cases h
  · cases h

/-- Where the pc goes after step number sub of a plan. -/
def afterStep {α : Type} (plan : List α) (finish : Nat → PC) (idx sub : Nat) : PC :=
  if sub + 1 = plan.length then finish idx else .run idx (sub + 1)

/-- A composite operation at sub is the plan's step number sub (R30). -/
theorem runPlan_at {α : Type} {run : α → State → Except Halt State} {plan : List α} {finish : Nat → PC} {s : State}
    {idx sub : Nat} {a : α} (h : s.pc = .run idx sub) (ha : plan[sub]? = some a) :
    runPlan run plan finish s = settle (run a s) (afterStep plan finish idx sub) s := by
  obtain ⟨hlt, rfl⟩ := List.getElem?_eq_some_iff.mp ha
  have hd := List.drop_eq_getElem_cons hlt
  unfold runPlan afterStep
  simp only [h]
  rw [hd]
  by_cases hl : sub + 1 = plan.length
  · simp [hl]
  · obtain ⟨b, l, hbl⟩ : ∃ b l, plan.drop (sub + 1) = b :: l :=
      ⟨_, _, List.drop_eq_getElem_cons (by omega)⟩
    simp [hl, hbl]

/-- A composite operation answers a next state only at one of its plan's steps. -/
theorem runPlan_next {α : Type} {run : α → State → Except Halt State} {plan : List α} {finish : Nat → PC} {s t : State}
    (h : runPlan run plan finish s = .next t) :
    ∃ idx sub a, s.pc = .run idx sub ∧ plan[sub]? = some a ∧
      settle (run a s) (afterStep plan finish idx sub) s = .next t := by
  cases hp : s.pc with
  | boot b => simp [runPlan, hp] at h
  | run idx sub =>
    cases ha : plan[sub]? with
    | none =>
      have : plan.drop sub = [] := by simpa using ha
      simp [runPlan, hp, this] at h
    | some a => exact ⟨idx, sub, a, rfl, ha, by rwa [← runPlan_at hp ha]⟩

/-- A write to TXBUF stores one byte and pulses its strobe, or refuses the index (R42, R47). -/
theorem writeTxbuf_ok {i : Nat} {v : Byte} {s t : State} (h : writeTxbuf i v s = .ok t) :
    ∃ b, writeByte s.txbuf i v = .ok b ∧ t = pulse (.txbufW i v) { s with txbuf := b } := by
  unfold writeTxbuf at h
  split at h
  · exact ⟨_, ‹_›, by cases h; rfl⟩
  · cases h

/-- A byte written is read back, and the other two are as before (R42). -/
theorem readByte_writeByte {b c : Bytes3} {i j : Nat} {v : Byte} (h : writeByte b i v = .ok c) :
    readByte c j = if j = i then .ok v else readByte b j := by
  rcases i with _ | _ | _ | i <;> simp [writeByte] at h <;> subst h <;>
    rcases j with _ | _ | _ | j <;> simp [readByte]

/-- setBit writes bit i and no other (R9). -/
theorem getBit_setBit (v : Byte) (i j : Nat) (b : Bool) (hj : j < 8) :
    getBit (setBit v i b) j = if j = i then b else getBit v j := by
  unfold getBit setBit
  cases b <;> by_cases h : j = i
  · subst h; simp [hj]
  · by_cases hlt : j < i
    · simp [hj, h, hlt]
    · have h1 : j - i ≠ 0 := by omega
      simp [hj, h, hlt, h1]
  · subst h; simp [hj]
  · by_cases hlt : j < i
    · simp [hj, h, hlt]
    · have h1 : j - i ≠ 0 := by omega
      simp [hj, h, hlt, h1]

/-- Polarity is its own inverse (R70). -/
@[simp] theorem decLevel_encLevel (p : Polarity) (b : Bool) : decLevel p (encLevel p b) = b := by
  cases p <;> cases b <;> rfl

end Sys2Proof.Machine
end

