-- ==== Sys2Proof/Laws/Step.lean ====
section
/-! SUPPORT. What one step can do: whose turn it is, when the foreground runs an operation, and the engine's turn. -/

namespace Sys2Proof.Machine

/-- With no turn left the foreground moves (log 1). -/
theorem step_nil {s : State} (h : s.sched = []) : step s = foreground s := by
  simp [step, nextStep, h]

/-- The schedule's head turn is taken with the rest still to come (log 1). -/
theorem step_cons {s : State} {t : Turn} {rest : List Turn} (h : s.sched = t :: rest) :
    step s = takeTurn t { s with sched := rest } := by
  simp [step, nextStep, h]

/-- The foreground of a safe state runs the word at pc (R28, R62). -/
theorem foreground_runWord {s : State} {idx sub : Nat} {w : Byte} (hp : s.pc = .run idx sub) (hs : Safe s)
    (hf : fetch s = some w) : foreground s = runWord w s := by
  unfold foreground
  rw [hp]
  simp [hs.1, hs.2, hf]

/-- The foreground of a safe state runs the operation the word at pc spells (R28, R62). -/
theorem foreground_exec {s : State} {idx sub : Nat} {w : Byte} {i : Instr} (hp : s.pc = .run idx sub) (hs : Safe s)
    (hf : fetch s = some w) (hd : decode w = .ok i) : foreground s = exec i s := by
  rw [foreground_runWord hp hs hf, runWord, hd]

/-- A foreground step that answers a next state is a boot step, an operation's step, or a refusal recorded. -/
theorem foreground_next {s t : State} (h : foreground s = .next t) :
    (∃ b, s.pc = .boot b ∧ t = bootStep b s) ∨
      (∃ idx sub w, s.pc = .run idx sub ∧ Safe s ∧ fetch s = some w ∧
        ((∃ i, decode w = .ok i ∧ exec i s = .next t) ∨
          ∃ e, decode w = .error e ∧ t = refuseInput (refusedWord w e) s)) := by
  unfold foreground at h
  cases hp : s.pc with
  | boot b => simp [hp] at h; exact .inl ⟨b, rfl, h.symm⟩
  | run idx sub =>
    simp only [hp] at h
    split at h
    · cases h
    split at h
    · cases h
    rename_i hf hr
    cases hw : fetch s with
    | none => simp [hw] at h
    | some w =>
      refine .inr ⟨idx, sub, w, rfl, ⟨not_not.mp hf, not_not.mp hr⟩, rfl, ?_⟩
      simp only [hw, runWord] at h
      cases hd : decode w with
      | ok i => simp only [hd] at h; exact .inl ⟨i, rfl, h⟩
      | error e => simp only [hd, Host.Outcome.next.injEq] at h; exact .inr ⟨e, rfl, h.symm⟩

/-- What one step that answers a next state is: a foreground step or another agent's turn, with the schedule's head taken. -/
theorem step_next {s t : State} (h : step s = .next t) :
    (s.sched = [] ∧ foreground s = .next t) ∨
      ∃ turn rest, s.sched = turn :: rest ∧
        ((turn = .foreground ∧ foreground { s with sched := rest } = .next t) ∨
          (turn = .foreground ∧ t = { s with sched := rest }) ∨
          (∃ b, turn = .buttons b ∧ t = { s with sched := rest, btn := b }) ∨
          (turn = .usbEvent ∧ t = { s with sched := rest, usbIrq := true }) ∨
          (∃ a, turn = .engine a ∧ t = engineTurn a { s with sched := rest }) ∨
          (turn = .reset ∧ t = resetStep { s with sched := rest })) := by
  cases hs : s.sched with
  | nil => exact .inl ⟨rfl, by rwa [step_nil hs] at h⟩
  | cons turn rest =>
    refine .inr ⟨turn, rest, rfl, ?_⟩
    rw [step_cons hs] at h
    cases turn with
    | foreground =>
      simp only [takeTurn] at h
      split at h
      · exact .inl ⟨rfl, h⟩
      · cases h; exact .inr (.inl ⟨rfl, rfl⟩)
    | buttons b => cases h; exact .inr (.inr (.inl ⟨b, rfl, rfl⟩))
    | usbEvent => cases h; exact .inr (.inr (.inr (.inl ⟨rfl, rfl⟩)))
    | engine a => cases h; exact .inr (.inr (.inr (.inr (.inl ⟨a, rfl, rfl⟩))))
    | reset => cases h; exact .inr (.inr (.inr (.inr (.inr ⟨rfl, rfl⟩))))

/-- The engine's turn writes the history, the engine's four flags and nothing else (R124). -/
theorem engineTurn_eq (a : EngineActs) (s : State) :
    engineTurn a s =
      { s with
        hist := (engineTurn a s).hist
        epInBusy := (engineTurn a s).epInBusy
        engReady := (engineTurn a s).engReady
        outPending := (engineTurn a s).outPending
        usbIrq := (engineTurn a s).usbIrq } := by
  obtain ⟨tr, rd, op⟩ := a
  unfold engineTurn
  split
  · cases hb : s.epInBusy <;> cases tr <;> cases rd <;> cases op <;>
      simp [engineWork, engineTransmit, engineReadyAct, engineOutPacket, hb]
  · rfl

end Sys2Proof.Machine
end

