-- ==== Sys2Proof/Laws/Atomic.lean ====
section
/-! SUPPORT. What one atomic step can write, what the plans hold and in which order, and what one step of any operation can be. -/

namespace Sys2Proof.Machine

/-! ### The effects as single record updates -/

theorem latchLoEffect_eq (s : State) :
    latchLoEffect s =
      { s with
        loadOk := if s.latchQ then latchHeld s else s.loadOk
        clkOk := s.latchQ || s.clkOk
        pLoad := if s.latchQ && s.params.padPresent then s.btn else s.pLoad
        nEdge := if s.latchQ && s.params.padPresent then 0 else s.nEdge
        latchQ := false
        hist := s.hist ++ [.line .nesLatch false s.now] } := by
  cases hq : s.latchQ <;> cases hp : s.params.padPresent <;> simp [latchLoEffect, latchFall, padCapture, emit, latchHeld, hq, hp]

theorem clkHiEffect_eq (s : State) :
    clkHiEffect s =
      { s with
        loadOk := if !s.clkQ && lowTooShort s then false else s.loadOk
        tClkRise := if s.clkQ then s.tClkRise else s.now
        clkOk := s.clkQ && s.clkOk
        nEdge := if !s.clkQ && (s.params.padPresent && !s.latchQ) then min (s.nEdge + 1) 8 else s.nEdge
        clkQ := true
        hist := s.hist ++ [.line .nesClk true s.now] } := by
  cases hq : s.clkQ <;> cases hl : s.latchQ <;> cases hp : s.params.padPresent <;>
    simp [clkHiEffect, clkRise, padShift, emit, hq, hl, hp]

theorem clkLoEffect_eq (s : State) :
    clkLoEffect s =
      { s with
        clkOk := if s.clkQ then clockHeld s else s.clkOk
        tClkFall := if s.clkQ then some s.now else s.tClkFall
        clkQ := false
        hist := s.hist ++ [.line .nesClk false s.now] } := by
  cases hq : s.clkQ <;> simp [clkLoEffect, clkFall, emit, clockHeld, hq]

/-- A SAMPLE that takes effect stores one bit, counts it, and publishes the eighth (R84). -/
theorem sampleEffect_eq {s : State} (h : s.bitcnt.toNat < 8) :
    sampleEffect s = .ok
      { s with
        sr := setBit s.sr s.bitcnt.toNat (sampledBit s)
        bitcnt := s.bitcnt + 1
        cur := if s.bitcnt = 7 then setBit s.sr s.bitcnt.toNat (sampledBit s) else s.cur
        draws := if sampleValid s then s.draws else s.draws + 1
        hist := s.hist ++ (.smp s.bitcnt (sampledBit s) (sampleValid s) ::
          if s.bitcnt = 7 then [.readDone (setBit s.sr s.bitcnt.toNat (sampledBit s))] else []) } := by
  have h8 : ¬ 8 ≤ s.bitcnt.toNat := by omega
  by_cases h7 : s.bitcnt = 7
  · simp [sampleEffect, h7, emit]
  · simp only [sampleEffect, h8, if_false, if_neg h7, emit]

/-- A SAMPLE with all bits read faults (R84). -/
theorem sampleEffect_overrun {s : State} (h : 8 ≤ s.bitcnt.toNat) :
    sampleEffect s = .error (.fault ⟨.sampleOverrun, s.bitcnt.toNat⟩) := by
  simp [sampleEffect, h]

theorem drainEffect_eq (s : State) :
    drainEffect s =
      { s with
        outPending := false
        pulses := s.pulses ++ (if s.outPending then [.rearmOut s.params.epOut] else [])
        hist := s.hist ++ (if s.outPending then [.drainAck] else []) } := by
  cases ho : s.outPending <;> simp [drainEffect, samplePort, emit, pulse, ho]
  rw [← ho]

theorem compareAndBranch_eq (s : State) :
    compareAndBranch s =
      { s with
        chg := changed s.cur s.last
        seqState := if changed s.cur s.last then .reporting else s.seqState } := by
  cases hc : changed s.cur s.last <;> simp [compareAndBranch, cmpEffect, hc]

/-! ### The plans -/

/-- READ's steps are the line operations, SAMPLE and WAIT (R86). -/
theorem mem_readPlan {p : Params} {a : AtomicStep} (h : a ∈ readPlan p) :
    a ∈ [AtomicStep.latchHi, .latchLo, .clkHi, .clkLo, .sample] ∨ ∃ n, a = .wait n := by
  simp only [readPlan, bitPlan, delayPlan, Config.nBits, List.mem_cons, List.mem_append, List.mem_map,
    List.mem_flatten, List.mem_replicate] at h
  aesop

/-- SEND's steps (R103). -/
theorem mem_sendPlan {a : AtomicStep} (h : a ∈ sendPlan) :
    a = .sendEnter ∨ a = .sendCopy 0 ∨ a = .sendCopy 1 ∨ a = .sendCopy 2 ∨ a = .sendExit ∨ a = .sendArm := by
  simpa [sendPlan] using h

/-! ### One step of any operation -/

/-- The byte a copy step writes (R105). -/
theorem sendCopy_zero (s : State) :
    sendCopy 0 s = .ok (pulse (.txbufW 0 s.report.b0) { s with txbuf := { s.txbuf with b0 := s.report.b0 } }) := rfl

theorem sendCopy_one (s : State) :
    sendCopy 1 s = .ok (pulse (.txbufW 1 s.report.b1) { s with txbuf := { s.txbuf with b1 := s.report.b1 } }) := rfl

theorem sendCopy_two (s : State) :
    sendCopy 2 s = .ok (pulse (.txbufW 2 s.report.b2) { s with txbuf := { s.txbuf with b2 := s.report.b2 } }) := rfl

/-- An operation's step that answers a next state took the effect of one atomic step, of DRAIN, CMP, COMMIT or NOP, or recorded what halted it. -/
theorem exec_next {i : Instr} {s t : State} (h : exec i s = .next t) :
    ∃ p, (∃ a u, runAtomic a s = .ok u ∧ t = setPc p u) ∨ (∃ a e, runAtomic a s = .error e ∧ t = recordHalt e s) ∨
      t = setPc p s ∨ t = setPc p (drainEffect s) ∨ t = setPc p (cmpEffect s) ∨ t = setPc p (commitEffect s) := by
  have ofAtomic : ∀ a p, settle (runAtomic a s) p s = .next t →
      (∃ a u, runAtomic a s = .ok u ∧ t = setPc p u) ∨ ∃ a e, runAtomic a s = .error e ∧ t = recordHalt e s := by
    intro a p hs
    rcases settle_next.mp hs with ⟨u, hu, rfl⟩ | ⟨e, he, rfl⟩
    · exact .inl ⟨a, u, hu, rfl⟩
    · exact .inr ⟨a, e, he, rfl⟩
  have atomic : ∀ a p, settle (runAtomic a s) p s = .next t →
      ∃ p, (∃ a u, runAtomic a s = .ok u ∧ t = setPc p u) ∨ (∃ a e, runAtomic a s = .error e ∧ t = recordHalt e s) ∨
        t = setPc p s ∨ t = setPc p (drainEffect s) ∨ t = setPc p (cmpEffect s) ∨ t = setPc p (commitEffect s) :=
    fun a p hs => ⟨p, (ofAtomic a p hs).imp id .inl⟩
  cases i with
  | nop => obtain ⟨_, -, h⟩ := single_next h; cases h; exact ⟨_, .inr (.inr (.inl rfl))⟩
  | latchHi => obtain ⟨_, -, h⟩ := single_next h; exact atomic .latchHi _ h
  | latchLo => obtain ⟨_, -, h⟩ := single_next h; exact atomic .latchLo _ h
  | clkHi => obtain ⟨_, -, h⟩ := single_next h; exact atomic .clkHi _ h
  | clkLo => obtain ⟨_, -, h⟩ := single_next h; exact atomic .clkLo _ h
  | sample => obtain ⟨_, -, h⟩ := single_next h; exact atomic .sample _ h
  | wait n => obtain ⟨_, -, h⟩ := single_next h; exact atomic (.wait n) _ h
  | read => obtain ⟨_, _, a, -, -, h⟩ := runPlan_next h; exact atomic a _ h
  | chkrdy => obtain ⟨_, -, h⟩ := single_next h; exact atomic .chkrdy _ h
  | drain => obtain ⟨_, -, h⟩ := single_next h; cases h; exact ⟨_, .inr (.inr (.inr (.inl rfl)))⟩
  | cmp => obtain ⟨_, -, h⟩ := single_next h; cases h; exact ⟨_, .inr (.inr (.inr (.inr (.inl rfl))))⟩
  | encode => obtain ⟨_, -, h⟩ := single_next h; exact atomic .encode _ h
  | send => obtain ⟨_, _, a, -, -, h⟩ := runPlan_next h; exact atomic a _ h
  | commit => obtain ⟨_, -, h⟩ := single_next h; cases h; exact ⟨_, .inr (.inr (.inr (.inr (.inr rfl))))⟩
  | iter => obtain ⟨_, _, a, -, -, h⟩ := runPlan_next h; exact atomic a _ h

end Sys2Proof.Machine
end

