-- ==== Sys2Proof/Laws/PerInstr.lean ====
section
/-! SUPPORT. One lemma per operation about its word: the format's argument bits and the opcode's place (R58 to R60). -/

namespace Sys2Proof.Laws.Format

/-- The word of an operation holds its op in bits 7:4, which is never the reserved 0xF, and 0 in bits 3:0 when its format is N. -/
def Statement (i : Instr) : Prop :=
  opOf (Sys2Proof.encode i) = opcode i ∧ opcode i ≠ 0xF ∧ (formatOf i = .n → argOf (Sys2Proof.encode i) = 0)

theorem nop : Statement .nop := by unfold Statement; decide
theorem latchHi : Statement .latchHi := by unfold Statement; decide
theorem latchLo : Statement .latchLo := by unfold Statement; decide
theorem clkHi : Statement .clkHi := by unfold Statement; decide
theorem clkLo : Statement .clkLo := by unfold Statement; decide
theorem sample : Statement .sample := by unfold Statement; decide

theorem wait (t : Nat) : Statement (.wait t) := by
  refine ⟨?_, by simp [opcode], fun h => by cases h⟩
  change opOf ((0x6 : Nibble) ++ BitVec.ofNat 4 t) = 0x6
  generalize BitVec.ofNat 4 t = x
  revert x
  decide

theorem read : Statement .read := by unfold Statement; decide
theorem chkrdy : Statement .chkrdy := by unfold Statement; decide
theorem drain : Statement .drain := by unfold Statement; decide
theorem cmp : Statement .cmp := by unfold Statement; decide
theorem encode : Statement .encode := by unfold Statement; decide
theorem send : Statement .send := by unfold Statement; decide
theorem commit : Statement .commit := by unfold Statement; decide
theorem iter : Statement .iter := by unfold Statement; decide

end Sys2Proof.Laws.Format
end

