-- ==== Sys2Proof/Tests/Slice0.lean ====
section
/-! SUPPORT. Small tests with results taken from the spec's encodings and its vectors (95_test_vectors.md), and the witnesses that the
statements' hypotheses can be met. -/

namespace Sys2Proof.Tests

open Sys2Proof Sys2Proof.Machine

/-! ## Helpers -/

/-- The example parameters of 00_scope.md R7 and the opening of 95_test_vectors.md. -/
def exampleParams : Params :=
  { wLatch := 12, wClkh := 6, wClkl := 6, tUnit := 1000, dataPolarity := .activeLow, padPresent := true,
    absentLevel := true, fillBit := false, actLedLevel := true, epIn := 1, epOut := 2 }

/-- The start of a supplied sequence (opening of 95_test_vectors.md), every draw given a value and the buttons 0x91 held. -/
def rig (ws : List Byte) : State :=
  { State.reset with
    txbuf := ⟨0xAA, 0xBB, 0xCC⟩
    btn := 0x91
    pLoad := 0
    nEdge := 0
    params := exampleParams
    program := .supplied ws
    pc := .run 0 0 }

/-- The rig after boot with the engine ready (P2's start). -/
def ready (ws : List Byte) : State := { rig ws with ieUsb := true, engReady := true }

/-- A field of the next state, if there is one. -/
def field {α : Type} (f : State → α) (o : Host.Outcome State Fault Refusal) : Option α :=
  match o with
  | .next t => some (f t)
  | .fault _ => none
  | .refused _ => none

/-! ## WellFormed -/

/-- R61: a count of 16 has no word. -/
theorem test_wait_16_ill_formed : wellFormed (.wait 16) = false := by decide

theorem test_wait_15_well_formed : wellFormed (.wait 15) = true := by decide

/-! ## Decoding: every constructor's word written out from R60 -/

theorem test_decode_nop : decode 0b0000_0000 = .ok .nop := by rfl
theorem test_decode_latch_hi : decode 0b0001_0000 = .ok .latchHi := by rfl
theorem test_decode_latch_lo : decode 0b0010_0000 = .ok .latchLo := by rfl
theorem test_decode_clk_hi : decode 0b0011_0000 = .ok .clkHi := by rfl
theorem test_decode_clk_lo : decode 0b0100_0000 = .ok .clkLo := by rfl
theorem test_decode_sample : decode 0b0101_0000 = .ok .sample := by rfl
theorem test_decode_wait_0 : decode 0b0110_0000 = .ok (.wait 0) := by rfl
theorem test_decode_wait_15 : decode 0b0110_1111 = .ok (.wait 15) := by rfl
theorem test_decode_read : decode 0b0111_0000 = .ok .read := by rfl
theorem test_decode_chkrdy : decode 0b1000_0000 = .ok .chkrdy := by rfl
theorem test_decode_drain : decode 0b1001_0000 = .ok .drain := by rfl
theorem test_decode_cmp : decode 0b1010_0000 = .ok .cmp := by rfl
theorem test_decode_encode : decode 0b1011_0000 = .ok .encode := by rfl
theorem test_decode_send : decode 0b1100_0000 = .ok .send := by rfl
theorem test_decode_commit : decode 0b1101_0000 = .ok .commit := by rfl
theorem test_decode_iter : decode 0b1110_0000 = .ok .iter := by rfl

/-- V6. -/
theorem test_refuse_nonzero_arg : decode 0x71 = .error .nonzeroArg := by rfl
/-- V7, V8. -/
theorem test_refuse_reserved : decode 0xF0 = .error .reservedOp ∧ decode 0xFF = .error .reservedOp := ⟨rfl, rfl⟩
/-- V4's word, from the encoder. -/
theorem test_encode_wait_12 : encode (.wait 12) = 0x6C := by decide
theorem test_table_word : decodeTableWord 8 0x6C = some (.wait 12) := by decide
theorem test_table_word_refused : decodeTableWord 8 0xF3 = none := by decide

/-! ## Line operations -/

/-- V16. -/
theorem test_latch_hi :
    field (fun t => (t.latchQ, t.tLatchRise, t.bitcnt, t.hist.getLast?)) (exec .latchHi (rig [])) =
      some (true, 0, 0, some (.line .nesLatch true 0)) := by decide

/-- V17: no rising edge, so the stamp stays. -/
theorem test_latch_hi_again :
    field (fun t => (t.latchQ, t.tLatchRise)) (exec .latchHi { rig [] with latchQ := true, now := 5 }) =
      some (true, 0) := by decide

/-- V18. -/
theorem test_latch_lo_wide :
    field (fun t => (t.latchQ, t.loadOk, t.clkOk, t.pLoad, t.nEdge))
      (exec .latchLo { rig [] with latchQ := true, now := 12, nEdge := 3 }) = some (false, true, true, 0x91, 0) := by
  decide

/-- V19: 11 units are too short. -/
theorem test_latch_lo_narrow :
    field (fun t => t.loadOk) (exec .latchLo { rig [] with latchQ := true, now := 11 }) = some false := by decide

/-- V21. -/
theorem test_clk_hi_shifts :
    field (fun t => (t.clkQ, t.tClkRise, t.clkOk, t.nEdge))
      (exec .clkHi { rig [] with now := 12, loadOk := true, clkOk := true }) = some (true, 12, false, 1) := by decide

/-- V24: low for 5 units only. -/
theorem test_clk_hi_low_too_short :
    field (fun t => (t.loadOk, t.nEdge))
      (exec .clkHi { rig [] with now := 23, tClkFall := some 18, loadOk := true, nEdge := 1 }) = some (false, 2) := by
  decide

/-- V22. -/
theorem test_clk_lo_wide :
    field (fun t => (t.clkQ, t.clkOk, t.tClkFall))
      (exec .clkLo { rig [] with clkQ := true, tClkRise := 12, now := 18 }) = some (false, true, some 18) := by decide

/-- V23. -/
theorem test_clk_lo_narrow :
    field (fun t => t.clkOk) (exec .clkLo { rig [] with clkQ := true, tClkRise := 12, now := 17 }) = some false := by
  decide

/-- V28: the eighth SAMPLE publishes CUR. -/
theorem test_sample_eighth :
    field (fun t => (t.sr, t.bitcnt, t.cur, t.hist.getLast?))
      (exec .sample
        { rig [] with bitcnt := 7, sr := 0x01, loadOk := true, clkOk := true, pLoad := 0x81, nEdge := 7 }) =
      some (0x81, 8, 0x81, some (.readDone 0x81)) := by decide

/-- V29: the ninth faults and writes nothing. -/
theorem test_sample_overrun :
    field (fun t => (t.faults, t.sr, t.bitcnt, t.pc)) (exec .sample { rig [] with bitcnt := 8, sr := 0x5A }) =
      some ([⟨.sampleOverrun, 8⟩], 0x5A, 8, .run 0 0) := by decide

/-- V29b: an invalid SAMPLE still runs; the bit is a draw, so only the rest is tested. -/
theorem test_sample_invalid :
    field (fun t => (t.bitcnt, t.draws, t.pc)) (exec .sample (rig [])) = some (1, 2, .run 1 0) := by decide

/-- V29c. -/
theorem test_wait :
    field (fun t => (t.now, t.pc)) (exec (.wait 6) { rig [] with now := 12 }) = some (18, .run 1 0) := by decide

/-! ## Encoder, detector -/

/-- V41. -/
theorem test_encode_up_right_a :
    field (fun t => (t.report, t.act, t.rstate)) (exec .encode { rig [] with cur := 0x91 }) =
      some (⟨0x7F, 0x80, 0x01⟩, true, 0x91) := by decide

/-- E7: all bits. -/
theorem test_encode_all : reportOf 0xFF = ⟨0x80, 0x80, 0x0F⟩ := by decide

/-- V52: equal reports, but a change. -/
theorem test_cmp_lost_bit :
    field (fun t => t.chg) (exec .cmp { rig [] with cur := 0x30, last := 0x10 }) = some true ∧
      reportOf 0x30 = reportOf 0x10 := by decide

/-- V53. -/
theorem test_cmp_equal :
    field (fun t => t.chg) (exec .cmp { rig [] with cur := 0xFF, last := 0xFF, chg := true }) = some false := by decide

/-- V54: RSTATE, not CUR. -/
theorem test_commit :
    field (fun t => t.last) (exec .commit { rig [] with rstate := 0x10, cur := 0x30 }) = some 0x10 := by decide

/-! ## Transport adapter -/

/-- V54d. -/
theorem test_chkrdy_busy :
    field (fun t => (t.rdyEng, t.rdyEp)) (exec .chkrdy { rig [] with engReady := true, epInBusy := true }) =
      some (true, false) := by decide

/-- V54e. -/
theorem test_drain_pending :
    field (fun t => (t.outPending, t.pulses, t.hist.getLast?)) (exec .drain { rig [] with outPending := true }) =
      some (false, [.rearmOut 2], some .drainAck) := by decide

/-- V54f. -/
theorem test_drain_idle : exec .drain (rig []) = .next { rig [] with pc := .run 1 0 } := by rfl

/-- V54g, sub 0. -/
theorem test_send_enter :
    field (fun t => (t.csSave, t.ieUsb, t.pc)) (exec .send (ready [])) = some (true, false, .run 0 1) := by decide

/-- V54j. -/
theorem test_send_busy :
    field (fun t => (t.faults, t.ieUsb, t.txbuf)) (exec .send { ready [] with epInBusy := true }) =
      some ([⟨.sendNotReady, 0⟩], true, ⟨0xAA, 0xBB, 0xCC⟩) := by decide

/-! ## NOP, READ, ITER -/

/-- V59. -/
theorem test_nop : exec .nop (rig []) = .next { rig [] with pc := .run 1 0 } := by rfl

/-- V31: 43 atomic steps with the example values. -/
theorem test_read_length : (readPlan exampleParams).length = 43 := by decide

/-- V31: the last step of READ is DELAY W_CLKL, and the next operation follows. -/
theorem test_read_last_step :
    field (fun t => (t.now, t.pc)) (exec .read { rig [] with pc := .run 0 42, now := 102 }) = some (108, .run 1 0) := by
  decide

/-- V62 and V63: 47 and 54 atomic steps. -/
theorem test_iter_lengths :
    (iterPlan exampleParams true false).length = 47 ∧ (iterPlan exampleParams true true).length = 54 ∧
      (iterPlan exampleParams false false).length = 3 := by decide

/-- V60: not ready, no DRAIN. -/
theorem test_iter_not_ready_no_drain :
    field (fun t => (t.outPending, t.seqState, t.pc)) (exec .iter { rig [] with outPending := true, pc := .run 0 1 }) =
      some (true, .polling, .run 0 2) := by decide

/-! ## Reset, boot, the engine and the word at pc -/

/-- V65: the last boot step. -/
theorem test_boot_unmasks :
    field (fun t => (t.ieUsb, t.pc, t.program)) (step { rig [] with pc := .boot 3 }) =
      some (true, .run 0 0, .hardwired) := by decide

/-- V66: a reset in mid-SEND. -/
theorem test_reset_abandons_send :
    field (fun t => (t.ieUsb, t.last, t.pc, arms t.hist))
      (step { ready [0xC0] with pc := .run 0 2, ieUsb := false, last := 0x33, sched := [.reset] }) =
      some (false, 0, .boot 0, []) := by decide

/-- V56. -/
theorem test_engine_transmits :
    field (fun t => (t.hist.drop 1, t.epInBusy, t.usbIrq))
      (step { ready [] with usbIrq := true, epInBusy := true, txbuf := ⟨0, 0, 1⟩, sched := [.engine ⟨true, .keep, false⟩] }) =
      some ([.isr, .tx ⟨0, 0, 1⟩], false, false) := by decide

/-- V58. -/
theorem test_engine_masked :
    field (fun t => (t.usbIrq, t.hist)) (step { rig [] with usbIrq := true, sched := [.engine ⟨true, .up, true⟩] }) =
      some (true, [.reset]) := by decide

/-- P4: NOP; 0xF3 sets REFUSED at pc = (1, 0) and nothing else. -/
theorem test_refused_word :
    step { rig [0x00, 0xF3] with pc := .run 1 0 } =
      .next { rig [0x00, 0xF3] with pc := .run 1 0, refused := some (.reservedOp 0xF3) } := by rfl

/-- A word placed in the reset state is what the very next step runs. -/
theorem test_with_fetch_word :
    field (fun t => (t.latchQ, t.pc)) (step (State.reset.withFetchWord 8 0x10)) = some (true, .run 1 0) := by decide

/-- READ's first step from the reset state, whatever the parameters are. -/
theorem test_with_fetch_word_read :
    field (fun t => (t.latchQ, t.bitcnt)) (step (State.reset.withFetchWord 8 0x70)) = some (true, 0) := by decide

/-- R47: an index outside 0 to 2 is refused. -/
theorem test_index_refused : readByte ⟨1, 2, 3⟩ 3 = .error (.refuse (.index 3)) := by rfl

/-! ## Ports and views -/

/-- R33, R95: the indicator's pin at its lit level. -/
theorem test_act_led_level : outLevel .actLed { rig [] with act := true } = true := by decide

/-- R45: byte 0 is least significant. -/
theorem test_report24 : report24 ⟨0x01, 0x02, 0x03⟩ = 0x030201 := by decide

/-- R68. -/
theorem test_s8 : s8 0x80 = -128 ∧ s8 0x7F = 127 := by decide

/-- R25. -/
theorem test_seq_codes : seqCode .idle = 0b00 ∧ seqCode .polling = 0b01 ∧ seqCode .reporting = 0b10 := by decide

/-! ## The assembler -/

/-- V11, V12. -/
theorem test_delay : delayCounts 16 = [15, 1] ∧ delayCounts 30 = [15, 15] ∧ delayCounts 0 = [] := by decide

/-- V13, V14. -/
theorem test_pseudo :
    assemble exampleParams [.strobe 12, .pulse 6] = some [0x10, 0x6C, 0x20, 0x30, 0x66, 0x40] := by decide

/-- R65: a label, a hexadecimal count and a comment. -/
theorem test_parse_line :
    assembleLines exampleParams
      [['l', '1', ':', ' ', 'W', 'A', 'I', 'T', ' ', '0', 'x', 'C', ' ', ';', ' ', 'x'], ['C', 'M', 'P']] =
      some [0x6C, 0xA0] := by decide

/-! ## Witnesses: the statements' hypotheses can be met -/

/-- OpcodeMapWords and PowerOnResetValues have no hypotheses; DecodeOfEncode and EncodeOfDecode. -/
theorem witness_encoding : wellFormed (.wait 15) = true ∧ decode 0x6F = .ok (.wait 15) := ⟨rfl, rfl⟩

/-- DecodeByCases: a word under each clause, at the clauses' edges. -/
theorem witness_decode_cases :
    opOf 0x60 = 0x6 ∧ opOf 0x6F = 0x6 ∧ opOf 0xF0 = 0xF ∧ (opOf 0xE1 = 0xE ∧ argOf 0xE1 ≠ 0) ∧
      (opOf 0xE0 = 0xE ∧ argOf 0xE0 = 0) := by decide

/-- RefusalChangesOnlyRefused, both clauses (the index clause's stop at the same state); the least index refused is 3. -/
theorem witness_refusal :
    (rig [0xF0]).sched = [] ∧ (rig [0xF0]).pc = .run 0 0 ∧ Safe (rig [0xF0]) ∧ fetch (rig [0xF0]) = some 0xF0 ∧
      decode 0xF0 = .error .reservedOp ∧ (rig []).refused = none ∧ 3 ≤ 3 ∧ (rig []).pc = .run 0 0 ∧
      (rig []).faults = [] ∧ (rig []).sched = [] :=
  ⟨rfl, rfl, ⟨rfl, rfl⟩, rfl, rfl, rfl, Nat.le_refl 3, rfl, rfl, rfl⟩

/-- ReadExpansion. -/
theorem witness_read_expansion :
    1 ≤ exampleParams.wLatch ∧ exampleParams.wLatch ≤ 15 ∧ 1 ≤ exampleParams.wClkh ∧ exampleParams.wClkh ≤ 15 ∧
      1 ≤ exampleParams.wClkl ∧ exampleParams.wClkl ≤ 15 := by decide

/-- The one-step statements (NopOnlyAdvancesPc, LatchHiStartsRead, LatchLoCaptures, ClkHiShifts, ClkLoStamps, WaitAdvancesTime,
ChkrdySamplesBoth, DrainAcknowledges, CmpComparesStates, EncodeBuildsReport, CommitLatchesRstate) and ReadBeginsWithLatch: pc at sub 0. -/
theorem witness_sub_zero : (rig []).pc = .run 0 0 := rfl

/-- SampleStoresOneBit: both clauses at the edge of BITCNT's range. -/
theorem witness_sample :
    ({ rig [] with bitcnt := 8 } : State).bitcnt = 8 ∧ ({ rig [] with bitcnt := 7 } : State).bitcnt.toNat < 8 ∧
      (rig []).bitcnt.toNat < 8 := by decide

/-- NinthSampleStopsForeground. -/
theorem witness_ninth_sample :
    ∃ s : State, s.sched = [] ∧ Safe s ∧ s.pc = .run 0 0 ∧ fetch s = some 0x50 ∧ s.bitcnt = 8 :=
  ⟨{ rig [0x50] with bitcnt := 8 }, rfl, ⟨rfl, rfl⟩, rfl, rfl, rfl⟩

/-- ValidSampleReadsButton: NEDGE = 7, NEDGE = 8, and no controller. -/
theorem witness_valid_sample :
    ∀ pr ∈ [(true, 7), (true, 8), (false, 0)],
      let s : State :=
        { rig [] with
          bitcnt := 7, loadOk := true, clkOk := true, nEdge := pr.2, params := { exampleParams with padPresent := pr.1 } }
      s.pc = .run 0 0 ∧ s.bitcnt.toNat < 8 ∧ sampleValid s = true ∧ s.params.padPresent = pr.1 ∧ s.nEdge = pr.2 := by
  decide

/-- R70, R78: the four levels of NES_DATA, active low, with A held, nothing captured, and FILL_BIT 0. -/
theorem test_pad_levels :
    samplePort .nesData { rig [] with latchQ := true } = false ∧
      samplePort .nesData { rig [] with pLoad := 0x80, nEdge := 7 } = false ∧
      samplePort .nesData { rig [] with pLoad := 0xFF, nEdge := 8 } = true ∧
      samplePort .nesData { rig [] with params := { exampleParams with padPresent := false } } = true := by decide

/-- WaitAdvancesTime. -/
theorem witness_wait : 15 ≤ 15 ∧ (rig []).pc = .run 0 0 := by decide

/-- SendSixSteps: a state for each clause. -/
theorem witness_send_steps :
    ((ready []).pc = .run 0 0 ∧ (ready []).engReady = true ∧ (ready []).epInBusy = false) ∧
      ((rig []).pc = .run 0 0 ∧ (rig []).engReady = false) ∧
      (({ ready [] with pc := .run 0 5, epInBusy := true } : State).pc = .run 0 5 ∧
        ({ ready [] with pc := .run 0 5, epInBusy := true } : State).epInBusy = true) ∧
      (({ ready [] with pc := .run 0 5 } : State).pc = .run 0 5 ∧
        ({ ready [] with pc := .run 0 5 } : State).engReady = true) ∧
      ∀ k ∈ [1, 2, 3, 4], ({ ready [] with pc := .run 0 k } : State).pc = .run 0 k := by decide

/-- SendFaultsWhenReadinessDrops, SendHandsOverReport. -/
theorem witness_send_runs :
    (ready [0xC0]).sched = [] ∧ Safe (ready [0xC0]) ∧ (ready [0xC0]).pc = .run 0 0 ∧
      fetch (ready [0xC0]) = some 0xC0 ∧ (ready [0xC0]).engReady = true ∧ (ready [0xC0]).epInBusy = false :=
  ⟨rfl, ⟨rfl, rfl⟩, rfl, rfl, rfl, rfl⟩

/-- ReadStepsAreLineOperations: a step of each kind, the first and the last of the plan among them. -/
theorem witness_read_steps :
    (rig []).bitcnt.toNat < 8 ∧ (readPlan (rig []).params)[0]? = some .latchHi ∧
      (readPlan (rig []).params)[1]? = some (.wait 12) ∧ (readPlan (rig []).params)[2]? = some .latchLo ∧
      (readPlan (rig []).params)[3]? = some .sample ∧ (readPlan (rig []).params)[4]? = some .clkHi ∧
      (readPlan (rig []).params)[6]? = some .clkLo ∧ (readPlan (rig []).params)[42]? = some (.wait 6) ∧
      (readPlan (rig []).params)[43]? = none := by decide

/-- ReadStepsAreLineOperations: the clock pulse and the delays after the eighth SAMPLE, which run with BITCNT = 8, and the SAMPLE before them
with BITCNT = 7. -/
theorem witness_read_steps_after_last_sample :
    (∀ k ∈ [(39, AtomicStep.clkHi), (40, .wait 6), (41, .clkLo), (42, .wait 6)],
      (readPlan exampleParams)[k.1]? = some k.2 ∧ k.2 ≠ .sample) ∧
      (readPlan exampleParams)[38]? = some .sample ∧ ({ rig [] with bitcnt := 7 } : State).bitcnt.toNat < 8 := by decide

/-- ReadReturnsButtons. -/
theorem witness_read_runs :
    (rig [0x70]).sched = [] ∧ Safe (rig [0x70]) ∧ (rig [0x70]).pc = .run 0 0 ∧ fetch (rig [0x70]) = some 0x70 ∧
      ReadStarts (rig [0x70]) := by
  refine ⟨rfl, ⟨rfl, rfl⟩, rfl, rfl, rfl, ?_, Nat.le_refl 0⟩
  intro f hf
  cases hf

/-- The hardwired program after boot with the engine ready and the lines at rest. -/
def looping : State := { ready [] with program := .hardwired }

/-- IterControlSteps: a state for each clause. -/
theorem witness_iter_steps :
    (.run 0 0 : PC) = (if looping.program = .hardwired then .run 0 0 else .run (0 + 1) 0) ∧
      looping.pc = .run 0 0 ∧ ({ looping with pc := .run 0 1 } : State).pc = .run 0 1 ∧
      (({ looping with pc := .run 0 2 } : State).rdyEng && ({ looping with pc := .run 0 2 } : State).rdyEp) = false ∧
      ∀ k ∈ [45, 46, 53], ∀ c ∈ [true, false],
        let s : State := { looping with rdyEng := true, rdyEp := true, chg := c, pc := .run 0 k }
        (s.rdyEng && s.rdyEp) = true ∧ s.chg = c ∧ s.pc = .run 0 k := by decide

theorem witness_iter_places :
    2 + (readPlan looping.params).length = 45 ∧ 3 + (readPlan looping.params).length = 46 ∧
      10 + (readPlan looping.params).length = 53 := by decide

/-- IterRunsReadAndSend: READ's first and last step, SEND's first and last step. -/
theorem witness_iter_runs :
    ∀ k ∈ [2, 44, 47, 52],
      let s : State := { looping with rdyEng := true, rdyEp := true, chg := true, pc := .run 0 k }
      (s.rdyEng && s.rdyEp) = true ∧ s.chg = true ∧ s.pc = .run 0 k ∧ s.bitcnt.toNat < 8 := by decide

/-- IterRunsReadAndSend: ITER's LATCH_HI and last READ step with BITCNT = 8. -/
theorem witness_iter_runs_full :
    ∀ j ∈ [0, 42],
      let s : State := { looping with rdyEng := true, rdyEp := true, bitcnt := 8, pc := .run 0 (2 + j) }
      (s.rdyEng && s.rdyEp) = true ∧ j < (readPlan s.params).length ∧ (readPlan s.params)[j]? ≠ some .sample := by
  decide

/-- IterNotReadySkips. -/
theorem witness_iter_not_ready :
    ∃ s : State, s.sched = [] ∧ Safe s ∧ s.pc = .run 0 0 ∧ s.program = .hardwired ∧ (s.engReady && !s.epInBusy) = false :=
  ⟨{ looping with engReady := false }, rfl, ⟨rfl, rfl⟩, rfl, rfl, rfl⟩

/-- IterNoChangeSendsNothing (the buttons last reported) and IterChangeSendsOneReport (other buttons). -/
theorem witness_iter_ready :
    looping.sched = [] ∧ Safe looping ∧ looping.pc = .run 0 0 ∧ looping.program = .hardwired ∧ ReadStarts looping ∧
      looping.engReady = true ∧ looping.epInBusy = false ∧ readResult looping ≠ looping.last ∧
      readResult { looping with last := 0x91 } = ({ looping with last := 0x91 } : State).last := by
  refine ⟨rfl, ⟨rfl, rfl⟩, rfl, rfl, ⟨rfl, ?_, Nat.le_refl 0⟩, rfl, rfl, by decide, rfl⟩
  intro f hf
  cases hf

/-- LinkOperationsFrame, ReportOperationsFrame, TransportOperationsFrame, IterFrame, SoleWriters and LinkSoleWriters: each operation answers a next state
somewhere. -/
theorem witness_frames :
    ∀ i ∈ [Instr.nop, .latchHi, .latchLo, .clkHi, .clkLo, .sample, .wait 3, .read, .chkrdy, .drain, .cmp, .encode,
        .send, .commit, .iter],
      (field (fun _ => true) (exec i (ready []))).isSome = true := by decide

/-- DelayAddsUp (a count at each end of its range) and ReportLosesOnlyLosers (equal reports, and the zero report). -/
theorem witness_delay_report :
    1 ∈ delayCounts 16 ∧ 15 ∈ delayCounts 16 ∧ reportOf 0xF0 = reportOf 0x50 ∧ reportOf 0 = ⟨0, 0, 0⟩ := by decide

/-- NoStepOutsideOperation, both clauses. -/
theorem witness_no_step :
    ({ rig [] with pc := .boot 3 } : State).pc = .boot 3 ∧ ({ rig [] with pc := .run 0 1 } : State).pc = .run 0 (0 + 1) ∧
      Instr.nop ≠ .read ∧ Instr.nop ≠ .send ∧ Instr.nop ≠ .iter := by decide

/-- StepRunsDecodedOperation, both clauses. -/
theorem witness_step_runs :
    (rig [0x10]).pc = .run 0 0 ∧ Safe (rig [0x10]) ∧ fetch (rig [0x10]) = some 0x10 ∧ decode 0x10 = .ok .latchHi ∧
      (rig [0x10]).sched = [] ∧ ({ rig [0x10] with sched := [.foreground] } : State).sched = .foreground :: [] :=
  ⟨rfl, ⟨rfl, rfl⟩, rfl, rfl, rfl, rfl⟩

/-- SequenceFetchAndEnd: the hardwired clause, a supplied word, and the end at idx = length. -/
theorem witness_sequence :
    (looping.pc = .run 0 0 ∧ looping.program = .hardwired) ∧
      ((rig [0x10]).pc = .run 0 0 ∧ (rig [0x10]).program = .supplied [0x10]) ∧
      (({ rig [0x10] with pc := .run 1 0 } : State).pc = .run 1 0 ∧ [(0x10 : Byte)].length ≤ 1 ∧
        Safe ({ rig [0x10] with pc := .run 1 0 } : State) ∧
        ({ rig [0x10] with pc := .run 1 0 } : State).sched = []) :=
  ⟨⟨rfl, rfl⟩, ⟨rfl, rfl⟩, rfl, Nat.le_refl 1, ⟨rfl, rfl⟩, rfl⟩

/-- A rig whose next turn is the engine's. -/
def engineNext (ie irq : Bool) : State :=
  { rig [] with ieUsb := ie, usbIrq := irq, sched := [.engine ⟨true, .up, true⟩] }

/-- EngineStepWhenEnabled, MaskedEngineTakesNoStep (either way), EngineLeavesForeground. -/
theorem witness_engine :
    (engineNext true true).sched = .engine ⟨true, .up, true⟩ :: [] ∧ (engineNext true true).ieUsb = true ∧
      (engineNext true true).usbIrq = true ∧ (engineNext false true).ieUsb = false ∧
      (engineNext true false).usbIrq = false ∧ (field (fun _ => true) (step (engineNext true true))).isSome = true := by
  decide

/-- StoppedForegroundOthersMove: a fault, a refusal, and a schedule for each clause. -/
theorem witness_stopped :
    (¬ Safe ({ rig [] with faults := [⟨.sampleOverrun, 8⟩] } : State)) ∧
      (¬ Safe ({ rig [] with refused := some (.index 3) } : State)) ∧
      ({ rig [] with faults := [⟨.sampleOverrun, 8⟩] } : State).pc = .run 0 0 ∧ (rig []).sched = [] ∧
      ∀ turn ∈ [Turn.foreground, .buttons 1, .usbEvent, .engine ⟨true, .up, true⟩],
        ({ rig [] with sched := [turn] } : State).sched = turn :: [] :=
  ⟨(fun h => absurd h.1 (by decide)), (fun h => absurd h.2 (by decide)), rfl, rfl, by decide⟩

/-- LaterResetKeepsRecords and BootRunsFourSteps. -/
theorem witness_reset_boot :
    ({ rig [] with sched := [.reset] } : State).sched = .reset :: [] ∧ State.reset.sched = [] ∧
      State.reset.pc = .boot 0 := ⟨rfl, rfl, rfl⟩

/-- StepKeepsRanges, StepKeepsBufferAtomic, StepKeepsHandOff, ArmsCarryEncodedState: the invariants and a next state at once, in a state that is about
to arm. -/
def arming : State :=
  { looping with
    cur := 0x01, rstate := 0x01, report := ⟨0, 0, 1⟩, txbuf := ⟨0, 0, 1⟩, act := true, chg := true, rdyEng := true,
    rdyEp := true, csSave := true, seqState := .reporting, bitcnt := 8, nEdge := 8, pc := .run 0 52 }

theorem witness_arming_stands : standsAt arming = some .sendArm := by decide

theorem witness_invariants :
    InRange arming ∧ HandOff arming ∧ (field (fun t => arms t.hist) (step arming)) = some [⟨0, 0, 1⟩] := by
  refine ⟨⟨by decide, by decide, by decide, by decide, (fun f hf => by cases hf)⟩, ⟨⟨(fun h => by cases h), ?_, ?_⟩, by decide, ?_⟩,
    by decide⟩
  · exact True.intro
  · rw [witness_arming_stands]; exact rfl
  · intro _; decide

/-- CommitLatchesArmedState: LAST changes at the COMMIT; the arm leads there; and an engine turn comes between (HandOff arming is in
witness_invariants). -/
theorem witness_commit_latches :
    (field (fun t => (t.last, decide (t.last = ({ arming with pc := .run 0 53 } : State).last)))
        (step { arming with pc := .run 0 53 }) = some (0x01, false)) ∧
      (({ arming with pc := .run 0 53 } : State).sched.head? ≠ some .reset) ∧
      (arming.program = .hardwired ∧ arming.sched = [] ∧ arming.engReady = true ∧ arming.epInBusy = false) ∧
      (field standsAt (step arming) = some (some .commitAndIdle)) ∧
      (∀ turn ∈ [Turn.engine ⟨true, .keep, false⟩], turn ≠ .foreground ∧ turn ≠ .reset) := by decide

theorem witness_arming_safe : Safe arming := ⟨rfl, rfl⟩

/-- RecordsOnlyGrow, TimeNeverDecreases (the head is no reset), EngineLeavesForeground's step. -/
theorem witness_any_step :
    (field (fun _ => true) (step (rig [0x63]))).isSome = true ∧ (rig [0x63]).sched.head? ≠ some .reset := by decide

end Sys2Proof.Tests
end

section
/-! SUPPORT. What one atomic step and one operation change and leave alone, in terms of the state's parts (R13 to R38). -/

namespace Sys2Proof.Machine

/-! ### The parts of the state under the shared operations -/

/-- What an atomic step leaves alone when it halts: everything but FAULT and REFUSED (R63, R121). -/
theorem recordHalt_frame (e : Halt) (s : State) :
    SameLink s (recordHalt e s) ∧ SamePad s (recordHalt e s) ∧ SameReport s (recordHalt e s) ∧
      SameAdapter s (recordHalt e s) ∧ SameEngine s (recordHalt e s) ∧ SameSetup s (recordHalt e s) ∧
      (recordHalt e s).hist = s.hist ∧ (recordHalt e s).pulses = s.pulses ∧ (recordHalt e s).draws = s.draws ∧
      (recordHalt e s).pc = s.pc := by
  rw [recordHalt_eq]
  simp [SameLink, SamePad, SameReport, SameAdapter, SameEngine, SameSetup]

/-- The engine's turn leaves everything of the foreground alone (R124). -/
theorem engineTurn_frame (a : EngineActs) (s : State) :
    SameLink s (engineTurn a s) ∧ SamePad s (engineTurn a s) ∧ SameReport s (engineTurn a s) ∧
      SameAdapter s (engineTurn a s) ∧ SameSetup s (engineTurn a s) ∧ (engineTurn a s).pc = s.pc ∧
      (engineTurn a s).faults = s.faults ∧ (engineTurn a s).refused = s.refused ∧
      (engineTurn a s).pulses = s.pulses ∧ (engineTurn a s).draws = s.draws := by
  rw [engineTurn_eq]
  simp [SameLink, SamePad, SameReport, SameAdapter, SameSetup]

/-! ### SEND's steps and SAMPLE, when they take effect -/

theorem sampleEffect_ok {s u : State} (h : sampleEffect s = .ok u) : s.bitcnt.toNat < 8 := by
  by_contra hn
  rw [sampleEffect_overrun (by omega)] at h
  cases h

theorem sendEnter_ok {s u : State} (h : sendEnter s = .ok u) :
    s.epInBusy = false ∧ u = { s with csSave := s.ieUsb, ieUsb := false } := by
  unfold sendEnter at h
  split at h
  · rename_i hr
    cases h
    simp only [samplePort, Bool.and_eq_true, Bool.not_eq_true'] at hr
    exact ⟨hr.2, rfl⟩
  · cases h

theorem sendCopy_ok {k : Nat} {s u : State} (h : sendCopy k s = .ok u) :
    ∃ v b, readByte s.report k = .ok v ∧ writeByte s.txbuf k v = .ok b ∧
      u = pulse (.txbufW k v) { s with txbuf := b } := by
  unfold sendCopy at h
  split at h
  · rename_i v hv
    obtain ⟨b, hb, rfl⟩ := writeTxbuf_ok h
    exact ⟨v, b, hv, hb, rfl⟩
  · cases h

theorem sendArm_ok {s u : State} (h : sendArm s = .ok u) :
    u = emit (.arm s.txbuf) { pulse (.armIn s.params.epIn) s with epInBusy := true } := by
  unfold sendArm at h
  split at h
  · cases h; rfl
  · cases h

/-! ### Line steps: the steps of READ and the line operations -/

/-- An atomic step of the Controller Link (R80 to R85). -/
inductive IsLine : AtomicStep → Prop
  | latchHi : IsLine .latchHi
  | latchLo : IsLine .latchLo
  | clkHi : IsLine .clkHi
  | clkLo : IsLine .clkLo
  | sample : IsLine .sample
  | wait (n : Nat) : IsLine (.wait n)

theorem isLine_of_mem_readPlan {p : Params} {a : AtomicStep} (h : a ∈ readPlan p) : IsLine a := by
  rcases mem_readPlan h with h | ⟨n, rfl⟩
  · simp only [List.mem_cons, List.not_mem_nil, or_false] at h
    rcases h with rfl | rfl | rfl | rfl | rfl <;> constructor
  · exact .wait n

/-- Only the link, the pad's capture, the history, FAULT and the draws may differ (R38). -/
def LinkFrame (s t : State) : Prop :=
  SameReport s t ∧ SameAdapter s t ∧ SameEngine s t ∧ SameSetup s t ∧ t.btn = s.btn ∧ t.refused = s.refused ∧
    t.pulses = s.pulses

/-- A line step that takes effect stays within the link, and records no fault. -/
theorem runAtomic_line_frame {a : AtomicStep} {s u : State} (ha : IsLine a) (h : runAtomic a s = .ok u) :
    LinkFrame s u ∧ u.faults = s.faults ∧ u.pc = s.pc := by
  cases ha with
  | latchHi => cases h; simp [LinkFrame, SameReport, SameAdapter, SameEngine, SameSetup, latchHiEffect]
  | latchLo => cases h; simp [LinkFrame, SameReport, SameAdapter, SameEngine, SameSetup, latchLoEffect_eq]
  | clkHi => cases h; simp [LinkFrame, SameReport, SameAdapter, SameEngine, SameSetup, clkHiEffect_eq]
  | clkLo => cases h; simp [LinkFrame, SameReport, SameAdapter, SameEngine, SameSetup, clkLoEffect_eq]
  | sample =>
    have hs := sampleEffect_eq (sampleEffect_ok h)
    cases hs.symm.trans h
    simp [LinkFrame, SameReport, SameAdapter, SameEngine, SameSetup]
  | wait n => cases h; simp [LinkFrame, SameReport, SameAdapter, SameEngine, SameSetup]

/-- No atomic step of a plan refuses: what halts it is a fault (R120). -/
theorem runAtomic_error {a : AtomicStep} {s : State} {e : Halt} (hk : ∀ k, a = .sendCopy k → k < 3)
    (h : runAtomic a s = .error e) : ∃ r, e = .fault r := by
  cases a with
  | sample =>
    by_cases h8 : s.bitcnt.toNat < 8
    · cases (sampleEffect_eq h8).symm.trans h
    · cases (sampleEffect_overrun (by omega)).symm.trans h; exact ⟨_, rfl⟩
  | sendEnter =>
    simp only [runAtomic, sendEnter] at h
    split at h
    · cases h
    · cases h; exact ⟨_, rfl⟩
  | sendCopy k =>
    have := hk k rfl
    interval_cases k <;> cases h
  | sendArm =>
    simp only [runAtomic, sendArm] at h
    split at h
    · cases h
    · cases h; exact ⟨_, rfl⟩
  | _ => cases h

/-- A step of a plan that halts records its fault and leaves all else alone. -/
theorem recordHalt_fault_frame (r : FaultRecord) (s : State) :
    LinkFrame s (recordHalt (.fault r) s) ∧ SameLink s (recordHalt (.fault r) s) ∧
      SamePad s (recordHalt (.fault r) s) := by
  simp [recordHalt, LinkFrame, SameLink, SamePad, SameReport, SameAdapter, SameEngine, SameSetup]

/-- A line step, taken or halted, stays within the link. -/
theorem settle_line_frame {a : AtomicStep} {p : PC} {s t : State} (ha : IsLine a)
    (h : settle (runAtomic a s) p s = .next t) : LinkFrame s t := by
  rcases settle_next.mp h with ⟨u, hu, rfl⟩ | ⟨e, he, rfl⟩
  · exact (runAtomic_line_frame ha hu).1
  · obtain ⟨r, rfl⟩ := runAtomic_error (fun k hk => by subst hk; cases ha) he
    exact (recordHalt_fault_frame r s).1

/-- The link, the pad, the setup and the engine's own flags are the same, no input is refused and no draw is taken. -/
def OffLineFrame (s t : State) : Prop :=
  SameLink s t ∧ SamePad s t ∧ SameSetup s t ∧ t.engReady = s.engReady ∧ t.usbIrq = s.usbIrq ∧
    t.refused = s.refused ∧ t.draws = s.draws

/-- A step that is no line step leaves the link and the pad alone, and neither raises a fault nor moves the pc (R38). -/
theorem runAtomic_offLine_frame {a : AtomicStep} {s u : State} (ha : ¬ IsLine a) (h : runAtomic a s = .ok u) :
    OffLineFrame s u ∧ u.faults = s.faults ∧ u.pc = s.pc := by
  cases a with
  | latchHi => exact absurd .latchHi ha
  | latchLo => exact absurd .latchLo ha
  | clkHi => exact absurd .clkHi ha
  | clkLo => exact absurd .clkLo ha
  | sample => exact absurd .sample ha
  | wait n => exact absurd (.wait n) ha
  | chkrdy => cases h; simp [OffLineFrame, SameLink, SamePad, SameSetup, chkrdyEffect]
  | drainAndPoll =>
    cases h
    cases hr : s.rdyEng <;>
      simp [OffLineFrame, SameLink, SamePad, SameSetup, drainAndPoll, drainEffect_eq, hr]
  | compare => cases h; simp [OffLineFrame, SameLink, SamePad, SameSetup, compareAndBranch_eq]
  | encode => cases h; simp [OffLineFrame, SameLink, SamePad, SameSetup, encodeEffect]
  | sendEnter => obtain ⟨-, rfl⟩ := sendEnter_ok h; simp [OffLineFrame, SameLink, SamePad, SameSetup]
  | sendCopy k => obtain ⟨v, b, -, -, rfl⟩ := sendCopy_ok h; simp [OffLineFrame, SameLink, SamePad, SameSetup]
  | sendExit => cases h; simp [OffLineFrame, SameLink, SamePad, SameSetup, sendExit]
  | sendArm => cases sendArm_ok h; simp [OffLineFrame, SameLink, SamePad, SameSetup]
  | commitAndIdle => cases h; simp [OffLineFrame, SameLink, SamePad, SameSetup, commitEffect]
  | idle => cases h; simp [OffLineFrame, SameLink, SamePad, SameSetup]

/-- A step that is no line step, taken or halted, leaves the link and the pad alone. -/
theorem settle_offLine_frame {a : AtomicStep} {p : PC} {s t : State} (ha : ¬ IsLine a)
    (hk : ∀ k, a = .sendCopy k → k < 3) (h : settle (runAtomic a s) p s = .next t) : OffLineFrame s t := by
  rcases settle_next.mp h with ⟨u, hu, rfl⟩ | ⟨e, he, rfl⟩
  · exact (runAtomic_offLine_frame ha hu).1
  · obtain ⟨r, rfl⟩ := runAtomic_error hk he
    obtain ⟨⟨-, -, ⟨heng, -, -, hirq⟩, hsetup, -, href, -⟩, hlink, hpad⟩ := recordHalt_fault_frame r s
    exact ⟨hlink, hpad, hsetup, heng, hirq, href, rfl⟩

/-! ### Which atomic step writes what (R16 to R25, R35) -/

/-- An event that is neither an ARM, nor a TX, nor a RESET: it leaves the report last armed as it was. -/
def Quiet : Event → Prop
  | .line _ _ _ => True
  | .smp _ _ _ => True
  | .readDone _ => True
  | .drainAck => True
  | .isr => True
  | .arm _ => False
  | .tx _ => False
  | .reset => False

/-- Each element of the encoder, the detector and the adapter, with the one kind of atomic step that writes it. -/
structure AtomicWrites (a : AtomicStep) (s u : State) : Prop where
  report : a ≠ .encode → u.report = s.report ∧ u.rstate = s.rstate
  last : a ≠ .commitAndIdle → u.last = s.last
  chg : a ≠ .compare → u.chg = s.chg
  ready : a ≠ .chkrdy → u.rdyEng = s.rdyEng ∧ u.rdyEp = s.rdyEp
  txbuf : (∀ k, a ≠ .sendCopy k) → u.txbuf = s.txbuf
  ieUsb : a ≠ .sendEnter → a ≠ .sendExit → u.ieUsb = s.ieUsb
  epInBusy : a ≠ .sendArm → u.epInBusy = s.epInBusy
  pulses : s.pulses <+: u.pulses

theorem runAtomic_writes {a : AtomicStep} {s u : State} (h : runAtomic a s = .ok u) : AtomicWrites a s u := by
  by_cases hl : IsLine a
  · obtain ⟨⟨⟨hrep, hrst, -, hlast, hchg⟩, ⟨htx, hre, hrp, hie, -, -⟩, ⟨-, hbusy, -, -⟩, -, -, -, hpul⟩, -, -⟩ :=
      runAtomic_line_frame hl h
    exact ⟨fun _ => ⟨hrep, hrst⟩, fun _ => hlast, fun _ => hchg, fun _ => ⟨hre, hrp⟩, fun _ => htx, fun _ _ => hie,
      fun _ => hbusy, by rw [hpul]⟩
  cases a with
  | latchHi => exact absurd .latchHi hl
  | latchLo => exact absurd .latchLo hl
  | clkHi => exact absurd .clkHi hl
  | clkLo => exact absurd .clkLo hl
  | sample => exact absurd .sample hl
  | wait n => exact absurd (.wait n) hl
  | chkrdy => cases h; constructor <;> simp [chkrdyEffect]
  | drainAndPoll => cases h; cases hr : s.rdyEng <;> constructor <;> simp [drainAndPoll, drainEffect_eq, hr]
  | compare => cases h; constructor <;> simp [compareAndBranch_eq]
  | encode => cases h; constructor <;> simp [encodeEffect]
  | sendEnter => obtain ⟨-, rfl⟩ := sendEnter_ok h; constructor <;> simp
  | sendCopy k => obtain ⟨v, b, -, -, rfl⟩ := sendCopy_ok h; constructor <;> simp
  | sendExit => cases h; constructor <;> simp [sendExit]
  | sendArm => cases sendArm_ok h; constructor <;> simp
  | commitAndIdle => cases h; constructor <;> simp [commitEffect]
  | idle => cases h; constructor <;> simp

/-- An atomic step appends to the history, and only the arm appends an event that is not quiet (R48). -/
theorem runAtomic_hist {a : AtomicStep} {s u : State} (h : runAtomic a s = .ok u) :
    ∃ es, u.hist = s.hist ++ es ∧ (a ≠ .sendArm → ∀ e ∈ es, Quiet e) := by
  have unchanged : u.hist = s.hist → ∃ es, u.hist = s.hist ++ es ∧ (a ≠ .sendArm → ∀ e ∈ es, Quiet e) :=
    fun hu => ⟨[], by simp [hu]⟩
  cases a with
  | latchHi => cases h; exact ⟨_, rfl, by simp [Quiet]⟩
  | latchLo => cases h; exact ⟨[.line .nesLatch false s.now], by simp [latchLoEffect_eq], by simp [Quiet]⟩
  | clkHi => cases h; exact ⟨[.line .nesClk true s.now], by simp [clkHiEffect_eq], by simp [Quiet]⟩
  | clkLo => cases h; exact ⟨[.line .nesClk false s.now], by simp [clkLoEffect_eq], by simp [Quiet]⟩
  | sample =>
    cases (sampleEffect_eq (sampleEffect_ok h)).symm.trans h
    exact ⟨_, rfl, by by_cases h7 : s.bitcnt = 7 <;> simp [h7, Quiet]⟩
  | wait n => cases h; exact unchanged rfl
  | chkrdy => cases h; exact unchanged rfl
  | drainAndPoll =>
    cases h
    exact ⟨if s.rdyEng && s.outPending then [.drainAck] else [],
      by cases hr : s.rdyEng <;> simp [drainAndPoll, drainEffect_eq, hr],
      by cases s.rdyEng <;> cases s.outPending <;> simp [Quiet]⟩
  | compare => cases h; exact unchanged (by simp [compareAndBranch_eq])
  | encode => cases h; exact unchanged rfl
  | sendEnter => obtain ⟨-, rfl⟩ := sendEnter_ok h; exact unchanged rfl
  | sendCopy k => obtain ⟨v, b, -, -, rfl⟩ := sendCopy_ok h; exact unchanged rfl
  | sendExit => cases h; exact unchanged rfl
  | sendArm => cases sendArm_ok h; exact ⟨[.arm s.txbuf], rfl, fun hne => absurd rfl hne⟩
  | commitAndIdle => cases h; exact unchanged rfl
  | idle => cases h; exact unchanged rfl

/-- Only an invalid SAMPLE takes a draw (R79), and no step gives one back. -/
theorem runAtomic_draws {a : AtomicStep} {s u : State} (h : runAtomic a s = .ok u) : s.draws ≤ u.draws := by
  by_cases hl : IsLine a
  · cases hl with
    | latchHi => cases h; simp [latchHiEffect]
    | latchLo => cases h; simp [latchLoEffect_eq]
    | clkHi => cases h; simp [clkHiEffect_eq]
    | clkLo => cases h; simp [clkLoEffect_eq]
    | sample =>
      cases (sampleEffect_eq (sampleEffect_ok h)).symm.trans h
      cases sampleValid s <;> simp
    | wait n => cases h; simp
  · obtain ⟨⟨-, -, -, -, -, -, hd⟩, -, -⟩ := runAtomic_offLine_frame hl h
    exact hd.ge

/-! ### Operations -/

/-- A one-step operation that cannot halt answers its effect with the pc moved on. -/
theorem single_ok_next {u s t : State} (h : single (.ok u) s = .next t) : ∃ p, t = setPc p u := by
  obtain ⟨idx, -, h⟩ := single_next h
  cases h
  exact ⟨_, rfl⟩

/-- A line operation is the line step of its name (R86). -/
theorem exec_lineOperation {i : Instr} {a : AtomicStep}
    (h : (i, a) ∈ [(Instr.latchHi, AtomicStep.latchHi), (.latchLo, .latchLo), (.clkHi, .clkHi), (.clkLo, .clkLo),
      (.sample, .sample)] ∨ ∃ n, i = .wait n ∧ a = .wait n) :
    IsLine a ∧ ∀ s, exec i s = single (runAtomic a s) s := by
  rcases h with h | ⟨n, rfl, rfl⟩
  · simp only [List.mem_cons, Prod.mk.injEq, List.not_mem_nil, or_false] at h
    rcases h with ⟨rfl, rfl⟩ | ⟨rfl, rfl⟩ | ⟨rfl, rfl⟩ | ⟨rfl, rfl⟩ | ⟨rfl, rfl⟩ <;>
      exact ⟨by constructor, fun _ => rfl⟩
  · exact ⟨.wait n, fun _ => rfl⟩

/-- A step of a line operation or of READ is a line step. -/
theorem exec_line_next {i : Instr} {s t : State}
    (hi : i = .latchHi ∨ i = .latchLo ∨ i = .clkHi ∨ i = .clkLo ∨ i = .sample ∨ (∃ n, i = .wait n) ∨ i = .read)
    (h : exec i s = .next t) : ∃ a p, IsLine a ∧ settle (runAtomic a s) p s = .next t := by
  have ofSingle : ∀ a, IsLine a → single (runAtomic a s) s = .next t →
      ∃ a p, IsLine a ∧ settle (runAtomic a s) p s = .next t := fun a ha hs => by
    obtain ⟨idx, -, hs⟩ := single_next hs
    exact ⟨a, _, ha, hs⟩
  rcases hi with rfl | rfl | rfl | rfl | rfl | ⟨n, rfl⟩ | rfl
  · exact ofSingle _ .latchHi h
  · exact ofSingle _ .latchLo h
  · exact ofSingle _ .clkHi h
  · exact ofSingle _ .clkLo h
  · exact ofSingle _ .sample h
  · exact ofSingle _ (.wait n) h
  · obtain ⟨idx, sub, a, -, ha, h⟩ := runPlan_next h
    exact ⟨a, _, isLine_of_mem_readPlan (List.mem_of_getElem? ha), h⟩

/-- Settles O34: every one of these steps is a line step, and a line step stays within the link. -/
theorem linkOperationsFrame : Obligations.LinkOperationsFrame := by
  intro i s t hi h
  obtain ⟨a, p, ha, h⟩ := exec_line_next hi h
  exact settle_line_frame ha h

/-- Settles O35: each of the four writes its own element and the pc. -/
theorem reportOperationsFrame : Obligations.ReportOperationsFrame := by
  intro i s t hi h
  rcases hi with rfl | rfl | rfl | rfl
  · obtain ⟨p, rfl⟩ := single_ok_next h
    simp [SameLink, SamePad, SameAdapter, SameEngine, SameSetup]
  · obtain ⟨p, rfl⟩ := single_ok_next h
    simp [SameLink, SamePad, SameAdapter, SameEngine, SameSetup, encodeEffect]
  · obtain ⟨p, rfl⟩ := single_ok_next h
    simp [SameLink, SamePad, SameAdapter, SameEngine, SameSetup, cmpEffect]
  · obtain ⟨p, rfl⟩ := single_ok_next h
    simp [SameLink, SamePad, SameAdapter, SameEngine, SameSetup, commitEffect]

/-- What SEND leaves alone beyond the link, the pad, the setup and the engine's own flags: the report and the other
operations' elements (R104 to R107). -/
def SendFrame (s t : State) : Prop :=
  SameReport s t ∧ t.seqState = s.seqState ∧ t.rdyEng = s.rdyEng ∧ t.rdyEp = s.rdyEp ∧ t.outPending = s.outPending

theorem runAtomic_send_frame {a : AtomicStep} {s u : State} (ha : a ∈ sendPlan) (h : runAtomic a s = .ok u) :
    SendFrame s u := by
  have copy : ∀ k, sendCopy k s = .ok u → SendFrame s u := fun k h => by
    obtain ⟨v, b, -, -, rfl⟩ := sendCopy_ok h
    simp [SendFrame, SameReport]
  rcases mem_sendPlan ha with rfl | rfl | rfl | rfl | rfl | rfl
  · obtain ⟨-, rfl⟩ := sendEnter_ok h
    simp [SendFrame, SameReport]
  · exact copy 0 h
  · exact copy 1 h
  · exact copy 2 h
  · cases h
    simp [SendFrame, SameReport, sendExit]
  · cases sendArm_ok h
    simp [SendFrame, SameReport]

/-- A step of SEND, taken or halted, leaves the link, the pad, the setup and the other operations' elements alone. -/
theorem settle_send_frame {a : AtomicStep} {p : PC} {s t : State} (ha : a ∈ sendPlan)
    (h : settle (runAtomic a s) p s = .next t) : OffLineFrame s t ∧ SendFrame s t := by
  have hline : ¬ IsLine a := by
    intro hl
    cases hl <;> simp [sendPlan] at ha
  have hcopy : ∀ k, a = .sendCopy k → k < 3 := by
    rintro k rfl
    simp [sendPlan] at ha
    omega
  refine ⟨settle_offLine_frame hline hcopy h, ?_⟩
  rcases settle_next.mp h with ⟨u, hu, rfl⟩ | ⟨e, -, rfl⟩
  · have hf : SendFrame s u := runAtomic_send_frame ha hu
    exact hf
  · obtain ⟨-, -, hrep, ⟨-, hre, hrp, -, -, hseq⟩, ⟨-, -, hout, -⟩, -⟩ := recordHalt_frame e s
    exact ⟨hrep, hseq, hre, hrp, hout⟩

/-- Settles O36: CHKRDY and DRAIN by their effects, SEND step by step of its plan. -/
theorem transportOperationsFrame : Obligations.TransportOperationsFrame := by
  intro i s t hi h
  rcases hi with rfl | rfl | rfl
  · obtain ⟨p, rfl⟩ := single_ok_next h
    simp [SameLink, SamePad, SameReport, SameSetup, chkrdyEffect]
  · obtain ⟨p, rfl⟩ := single_ok_next h
    simp [SameLink, SamePad, SameReport, SameSetup, drainEffect_eq]
  · obtain ⟨idx, sub, a, -, ha, h⟩ := runPlan_next h
    obtain ⟨⟨hlink, hpad, hsetup, heng, hirq, href, hdraws⟩, hrep, hseq, hre, hrp, hout⟩ :=
      settle_send_frame (List.mem_of_getElem? ha) h
    exact ⟨hlink, hpad, hrep, hsetup, hseq, heng, hirq, href, hdraws, fun _ => ⟨hre, hrp⟩, by simp, fun _ => hout,
      by simp⟩

/-! ### ITER -/

/-- A copy step of ITER names a byte of TXBUF (R105, R113). -/
theorem sendCopy_mem_iterPlan {p : Params} {ready chg : Bool} {k : Nat} (h : .sendCopy k ∈ iterPlan p ready chg) :
    k < 3 := by
  have hread : AtomicStep.sendCopy k ∉ readPlan p := fun hm => by cases isLine_of_mem_readPlan hm
  cases ready <;> cases chg <;> simp [iterPlan, reportPlan, sendPlan, hread] at h
  omega

/-- A line step that changes the pad changes the line that moved it (R76, R77). -/
theorem settle_line_samePad {a : AtomicStep} {p : PC} {s t : State} (ha : IsLine a)
    (h : settle (runAtomic a s) p s = .next t) (hlink : SameLink s t) : SamePad s t := by
  rcases settle_next.mp h with ⟨u, hu, rfl⟩ | ⟨e, -, rfl⟩
  · obtain ⟨-, -, -, hq, hc, -⟩ := hlink
    cases ha with
    | latchHi => cases hu; simp [SamePad, latchHiEffect]
    | latchLo => cases hu; simp [latchLoEffect_eq] at hq; simp [SamePad, latchLoEffect_eq, ← hq]
    | clkHi => cases hu; simp [clkHiEffect_eq] at hc; simp [SamePad, clkHiEffect_eq, ← hc]
    | clkLo => cases hu; simp [SamePad, clkLoEffect_eq]
    | sample =>
      cases (sampleEffect_eq (sampleEffect_ok hu)).symm.trans hu
      simp [SamePad]
    | wait n => cases hu; simp [SamePad]
  · exact (recordHalt_frame e s).2.1

/-- Settles O37: a step of ITER is a line step or leaves the link and the pad alone. -/
theorem iterFrame : Obligations.IterFrame := by
  intro s t h
  obtain ⟨idx, sub, a, -, ha, h⟩ := runPlan_next h
  by_cases hl : IsLine a
  · obtain ⟨hrep, -, ⟨heng, -, -, hirq⟩, hsetup, hbtn, href, -⟩ := settle_line_frame hl h
    exact ⟨hsetup, hbtn, heng, hirq, href, .inr hrep, settle_line_samePad hl h⟩
  · obtain ⟨hlink, hpad, hsetup, heng, hirq, href, -⟩ :=
      settle_offLine_frame hl (by rintro k rfl; exact sendCopy_mem_iterPlan (List.mem_of_getElem? ha)) h
    exact ⟨hsetup, hpad.1, heng, hirq, href, .inl hlink, fun _ => hpad⟩

/-! ### Who writes what (R13 to R34) -/

/-- The operations fall into those of the link, of the report, of the transport, and ITER (R60). -/
theorem instr_groups (i : Instr) :
    (i = .latchHi ∨ i = .latchLo ∨ i = .clkHi ∨ i = .clkLo ∨ i = .sample ∨ (∃ n, i = .wait n) ∨ i = .read) ∨
      (i = .nop ∨ i = .encode ∨ i = .cmp ∨ i = .commit) ∨ (i = .chkrdy ∨ i = .drain ∨ i = .send) ∨ i = .iter := by
  cases i <;> simp

/-- Settles O38: each group's frame names the one operation of the group that writes an element. -/
theorem soleWriters : Obligations.SoleWriters := by
  intro i s t h
  rcases instr_groups i with hi | hi | hi | rfl
  · obtain ⟨⟨hrep, hrst, hact, hlast, hchg⟩, ⟨htx, hre, hrp, hie, hcs, hseq⟩, ⟨-, hbusy, hout, -⟩, -⟩ :=
      linkOperationsFrame i s t hi h
    simp [hrep, hrst, hact, hlast, hchg, htx, hre, hrp, hie, hcs, hseq, hbusy, hout]
  · obtain ⟨-, -, ⟨htx, hre, hrp, hie, hcs, hseq⟩, ⟨-, hbusy, hout, -⟩, -, -, -, -, -, -, henc, hcmp, hcom⟩ :=
      reportOperationsFrame i s t hi h
    refine ⟨fun hne => .inl ?_, fun hne => .inl ?_, fun hne => .inl ?_, ?_⟩
    · by_contra hi'; exact hne (hcom hi')
    · by_contra hi'; exact hne (hcmp hi')
    · by_contra hi'; simp [henc hi'] at hne
    · simp [htx, hre, hrp, hie, hcs, hseq, hbusy, hout]
  · obtain ⟨-, -, ⟨hrep, hrst, hact, hlast, hchg⟩, -, hseq, -, -, -, -, hchk, hsend, hdrain, -⟩ :=
      transportOperationsFrame i s t hi h
    refine ⟨by simp [hlast], by simp [hchg], by simp [hrep, hrst, hact], fun hne => .inl ?_, fun hne => .inl ?_,
      fun hne => .inl ?_, by simp [hseq]⟩
    · by_contra hi'; simp [hsend hi'] at hne
    · by_contra hi'; exact hne (hdrain hi')
    · by_contra hi'; simp [hchk hi'] at hne
  · simp

/-- Settles O59: a line operation by its own effect, the others because they leave the link and the pad alone. -/
theorem linkSoleWriters : Obligations.LinkSoleWriters := by
  intro i s t h
  rcases instr_groups i with hi | hi | hi | rfl
  · rcases hi with rfl | rfl | rfl | rfl | rfl | ⟨n, rfl⟩ | rfl
    · obtain ⟨p, rfl⟩ := single_ok_next h
      simp [latchHiEffect]
    · obtain ⟨p, rfl⟩ := single_ok_next h
      simp [latchLoEffect_eq]
    · obtain ⟨p, rfl⟩ := single_ok_next h
      simp [clkHiEffect_eq]
    · obtain ⟨p, rfl⟩ := single_ok_next h
      simp [clkLoEffect_eq]
    · obtain ⟨idx, -, h⟩ := single_next h
      rcases settle_next.mp h with ⟨u, hu, rfl⟩ | ⟨e, -, rfl⟩
      · cases (sampleEffect_eq (sampleEffect_ok hu)).symm.trans hu
        simp
      · rw [recordHalt_eq]
        simp
    · obtain ⟨p, rfl⟩ := single_ok_next h
      simp
    · simp
  · obtain ⟨⟨hsr, hbit, hcur, hlq, hcq, hlr, hcr, hcf, hlo, hco, hnow⟩, ⟨-, hpl, hne⟩, -⟩ :=
      reportOperationsFrame i s t hi h
    simp [hsr, hbit, hcur, hlq, hcq, hlr, hcr, hcf, hlo, hco, hnow, hpl, hne]
  · obtain ⟨⟨hsr, hbit, hcur, hlq, hcq, hlr, hcr, hcf, hlo, hco, hnow⟩, ⟨-, hpl, hne⟩, -⟩ :=
      transportOperationsFrame i s t hi h
    simp [hsr, hbit, hcur, hlq, hcq, hlr, hcr, hcf, hlo, hco, hnow, hpl, hne]
  · simp

/-- A line step neither reads nor writes the pc; a SAMPLE takes effect with BITCNT below 8. -/
theorem runAtomic_line_setPc {a : AtomicStep} {s : State} (q : PC) (ha : IsLine a)
    (h8 : a = .sample → s.bitcnt.toNat < 8) :
    ∃ u, runAtomic a s = .ok u ∧ runAtomic a (setPc q s) = .ok (setPc q u) := by
  cases ha with
  | latchHi => exact ⟨_, rfl, rfl⟩
  | latchLo => exact ⟨_, rfl, by simp [runAtomic, latchLoEffect_eq, setPc, latchHeld]⟩
  | clkHi => exact ⟨_, rfl, by simp [runAtomic, clkHiEffect_eq, setPc, lowTooShort]⟩
  | clkLo => exact ⟨_, rfl, by simp [runAtomic, clkLoEffect_eq, setPc, clockHeld]⟩
  | sample => exact ⟨_, sampleEffect_eq (h8 rfl), sampleEffect_eq (s := setPc q s) (h8 rfl)⟩
  | wait n => exact ⟨_, rfl, rfl⟩

/-- Settles O27: the step at the place and the line operation are the same effect, under two pcs. -/
theorem readStepsAreLineOperations : Obligations.ReadStepsAreLineOperations := by
  intro s idx sub i a hp ha h8 hia
  obtain ⟨hl, hexec⟩ := exec_lineOperation hia
  obtain ⟨u, hu, hu0⟩ := runAtomic_line_setPc (.run idx 0) hl h8
  refine ⟨setPc (.run (idx + 1) 0) (setPc (.run idx 0) u), ?_, ?_⟩
  · rw [hexec, single_at (idx := idx) rfl]
    change settle (runAtomic a (setPc (.run idx 0) s)) _ _ = _
    rw [hu0, settle_ok]
  · change runPlan runAtomic (readPlan s.params) nextOperation s = _
    rw [runPlan_at hp ha, hu, settle_ok]
    rfl

end Sys2Proof.Machine
end

section
/-! SUPPORT. What every step of every agent keeps: an induction over the turns, and the records, time and ranges (R27 to R36). -/

namespace Sys2Proof.Machine

/-! ### Steps at given states -/

/-- A boot step is the foreground's step while boot is running (R138). -/
theorem step_boot {s : State} {b : Fin 4} (hs : s.sched = []) (hp : s.pc = .boot b) :
    step s = .next (bootStep b s) := by
  simp [step_nil hs, foreground, hp]

/-- With a refusal recorded and no fault the foreground, alone, answers the model's stop (R63, log 7). -/
theorem step_refused_alone {s : State} {idx sub : Nat} {x : RefusedInput} (hp : s.pc = .run idx sub)
    (hs : s.sched = []) (hf : s.faults = []) (hr : s.refused = some x) : step s = .refused .wordRefused := by
  simp [step_nil hs, foreground, hp, hf, hr]

/-- With a refusal recorded a turn of the foreground passes (R63, log 1). -/
theorem step_refused_passes {s : State} {idx sub : Nat} {x : RefusedInput} {rest : List Turn}
    (hp : s.pc = .run idx sub) (hs : s.sched = .foreground :: rest) (hr : s.refused = some x) :
    step s = .next { s with sched := rest } := by
  simp [step_cons hs, takeTurn, foregroundReady, hp, hr]

/-- Settles O5: the refusal is recorded by refuseInput, and the foreground then only passes or stops. -/
theorem refusalChangesOnlyRefused : Obligations.RefusalChangesOnlyRefused := by
  constructor
  · intro s idx sub w e hs hp hsafe hf hd
    refine ⟨refusedWord w e, ?_, step_refused_alone hp hs hsafe.1 rfl, fun rest => step_refused_passes hp rfl rfl⟩
    rw [step_nil hs, foreground_runWord hp hsafe hf]
    simp [runWord, hd, refuseInput, hsafe.2]
  · intro s b i v p hr hi
    obtain ⟨k, rfl⟩ := Nat.exists_eq_add_of_le' hi
    refine ⟨rfl, rfl, rfl, ?_, ?_⟩
    · simp [writeTxbuf, writeByte, recordHalt, refuseInput, hr]
    · rintro ⟨idx, sub, hp⟩ hf
      exact ⟨fun hs => step_refused_alone hp hs hf rfl, fun rest => step_refused_passes hp rfl rfl⟩

/-- Settles O18. -/
theorem drainAcknowledges : Obligations.DrainAcknowledges := by
  refine ⟨by decide, fun s idx hp => ?_⟩
  change single (.ok (drainEffect s)) s = _
  rw [single_at hp, settle_ok, drainEffect_eq]
  cases ho : s.outPending <;> simp [setPc]

/-- The operations of several atomic steps (R30). -/
def Composite (i : Instr) : Prop := i = .read ∨ i = .send ∨ i = .iter

/-- Every other operation is one atomic step (R30). -/
theorem exec_single {i : Instr} (hi : ¬ Composite i) (s : State) : ∃ r, exec i s = single r s := by
  cases i with
  | read => exact absurd (.inl rfl) hi
  | send => exact absurd (.inr (.inl rfl)) hi
  | iter => exact absurd (.inr (.inr rfl)) hi
  | _ => exact ⟨_, rfl⟩

/-- A composite operation runs its plan, and then an operation begins (R30, R74, R117). -/
theorem exec_composite {i : Instr} (hi : Composite i) (s : State) :
    ∃ finish, (∀ idx, ∃ k, finish idx = .run k 0) ∧ exec i s = runPlan runAtomic (planOf i s) finish s := by
  rcases hi with rfl | rfl | rfl
  · exact ⟨nextOperation, fun idx => ⟨_, rfl⟩, rfl⟩
  · exact ⟨nextOperation, fun idx => ⟨_, rfl⟩, rfl⟩
  · refine ⟨iterFinish s.program, fun idx => ?_, rfl⟩
    cases s.program <;> exact ⟨_, rfl⟩

/-- Settles O39. -/
theorem noStepOutsideOperation : Obligations.NoStepOutsideOperation := by
  intro i s
  constructor
  · rintro ⟨b, hp⟩
    by_cases hi : Composite i
    · obtain ⟨finish, -, hr⟩ := exec_composite hi s
      simp [hr, runPlan, hp]
    · obtain ⟨r, hr⟩ := exec_single hi s
      simp [hr, single, hp]
  · rintro ⟨idx, sub, hp⟩ hread hsend hiter
    obtain ⟨r, hr⟩ := exec_single (i := i) (by simp [Composite, hread, hsend, hiter]) s
    simp [hr, single, hp]

/-- A safe state with a word at its pc lets the foreground move (R28, R63, R121). -/
theorem foregroundReady_of_fetch {s : State} {idx sub : Nat} {w : Byte} (hp : s.pc = .run idx sub) (hs : Safe s)
    (hf : fetch s = some w) : foregroundReady s = true := by
  simp [foregroundReady, hp, hs.1, hs.2, hf]

/-- Settles O40. -/
theorem stepRunsDecodedOperation : Obligations.StepRunsDecodedOperation := by
  intro s idx sub w i hp hsafe hf hd
  refine ⟨fun hs => by rw [step_nil hs, foreground_exec hp hsafe hf hd], fun rest hs => ?_⟩
  have hready : foregroundReady { s with sched := rest } = true := foregroundReady_of_fetch hp hsafe hf
  rw [step_cons hs, takeTurn, if_pos hready]
  exact foreground_exec hp hsafe hf hd

/-- Settles O41. -/
theorem sequenceFetchAndEnd : Obligations.SequenceFetchAndEnd := by
  intro s idx sub hp
  refine ⟨fun hprog h0 => by simp [fetch, hp, hprog, h0, programWords], fun ws hprog => ?_⟩
  have hf : fetch s = ws[idx]? := by simp [fetch, hp, hprog, programWords]
  refine ⟨hf, fun hle hsafe hs => ?_⟩
  rw [List.getElem?_eq_none hle] at hf
  simp [step_nil hs, foreground, hp, hsafe.1, hsafe.2, hf]

/-- A masked engine, or one with nothing pending, takes no step (R23, R123). -/
theorem engineTurn_masked {s : State} (a : EngineActs) (h : s.ieUsb = false ∨ s.usbIrq = false) : engineTurn a s = s := by
  rcases h with h | h <;> simp [engineTurn, engineEnabled, h]

/-- Settles O43. -/
theorem maskedEngineTakesNoStep : Obligations.MaskedEngineTakesNoStep := by
  intro s a rest hs hmask
  rw [step_cons hs, takeTurn, engineTurn_masked (s := { s with sched := rest }) a hmask]

/-- Settles O44. -/
theorem engineLeavesForeground : Obligations.EngineLeavesForeground := by
  intro s t a rest hs h
  rw [step_cons hs] at h
  cases h
  obtain ⟨hlink, hpad, hrep, had, ⟨hpar, hprog, -⟩, hpc, hf, hr, hpul, hd⟩ :=
    engineTurn_frame a { s with sched := rest }
  exact ⟨hlink, hpad, hrep, had, hpc, hf, hr, hpul, hpar, hprog, hd⟩

/-- Settles O46. -/
theorem powerOnResetValues : Obligations.PowerOnResetValues := by
  simp [Obligations.PowerOnResetValues, State.reset, Safe]

/-- Settles O47. -/
theorem laterResetKeepsRecords : Obligations.LaterResetKeepsRecords := by
  intro s rest hs
  refine ⟨Config.txbufDraw s.draws, Config.pLoadDraw s.draws, min (Config.nEdgeDraw s.draws) 8, min_le_right _ _, ?_⟩
  rw [step_cons hs]
  rfl

/-- Boot 0 writes the lines, the indicator and what a latch fall writes (R138, log 11). -/
theorem bootLines_eq (s : State) :
    bootLines s =
      { s with
        loadOk := if s.latchQ then latchHeld s else s.loadOk
        clkOk := s.latchQ || s.clkOk
        pLoad := if s.latchQ && s.params.padPresent then s.btn else s.pLoad
        nEdge := if s.latchQ && s.params.padPresent then 0 else s.nEdge
        latchQ := false
        clkQ := false
        act := false } := by
  cases hq : s.latchQ <;> cases hp : s.params.padPresent <;> simp [bootLines, latchFall, padCapture, latchHeld, hq, hp]

/-- Settles O48. -/
theorem bootRunsFourSteps : Obligations.BootRunsFourSteps := by
  intro s hs hp
  have h1 : (bootStep 0 s).sched = [] := by simp [bootStep, bootLines_eq, hs]
  refine ⟨bootStep 0 s, bootStep 1 (bootStep 0 s), bootStep 2 (bootStep 1 (bootStep 0 s)),
    bootStep 3 (bootStep 2 (bootStep 1 (bootStep 0 s))), step_boot hs hp, step_boot h1 rfl, step_boot h1 rfl,
    step_boot h1 rfl, ?_⟩
  have hpulses : (bootStep 0 s).pulses = s.pulses := by simp [bootStep, bootLines_eq]
  refine ⟨⟨rfl, rfl, ?_, hpulses, ?_, rfl⟩, ?_, ?_, rfl, rfl, rfl, ?_⟩
  · simp [outLevel, bootStep, bootLines_eq]
  · simp [bootStep, bootLines_eq]
  · simpa [bootStep, pulse, setPc] using hpulses
  · simpa [bootStep, pulse, setPc] using hpulses
  · simp [bootStep, bootLines_eq, SameEngine]

/-! ### Every step of every agent (R52) -/

/-- What every effect, every halt and every boot step does to a state, the foreground's step does (R28, R30, R121, R138). -/
theorem foreground_relates {R : State → State → Prop} (hboot : ∀ b s, R s (bootStep b s))
    (hhalt : ∀ e s, R s (recordHalt e s)) (hpc : ∀ s p u, R s u → R s (setPc p u))
    (hatomic : ∀ a s u, runAtomic a s = .ok u → R s u) (hnop : ∀ s, R s s) (hdrain : ∀ s, R s (drainEffect s))
    (hcmp : ∀ s, R s (cmpEffect s)) (hcommit : ∀ s, R s (commitEffect s)) {s t : State}
    (h : foreground s = .next t) : R s t := by
  rcases foreground_next h with ⟨b, -, rfl⟩ | ⟨idx, sub, w, -, -, -, ⟨i, -, h⟩ | ⟨e, -, rfl⟩⟩
  · exact hboot b s
  · obtain ⟨p, ⟨a, u, hu, rfl⟩ | ⟨a, e, -, rfl⟩ | rfl | rfl | rfl | rfl⟩ := exec_next h
    · exact hpc s p u (hatomic a s u hu)
    · exact hhalt e s
    · exact hpc s p s (hnop s)
    · exact hpc s p _ (hdrain s)
    · exact hpc s p _ (hcmp s)
    · exact hpc s p _ (hcommit s)
  · exact hhalt (.refuse _) s

/-- What the environment's fields do not enter, and the foreground, the engine and a reset keep, every step keeps (R52). -/
theorem step_preserves {P : State → Prop}
    (henv : ∀ (s : State) sched btn usbIrq, P s → P { s with sched := sched, btn := btn, usbIrq := usbIrq })
    (hforeground : ∀ s t, P s → foreground s = .next t → P t) (hengine : ∀ a s, P s → P (engineTurn a s))
    (hreset : ∀ s, P s → P (resetStep s)) {s t : State} (hs : P s) (h : step s = .next t) : P t := by
  rcases step_next h with ⟨-, h⟩ | ⟨turn, rest, -, ⟨-, h⟩ | ⟨-, rfl⟩ | ⟨b, -, rfl⟩ | ⟨-, rfl⟩ | ⟨a, -, rfl⟩ | ⟨-, rfl⟩⟩
  · exact hforeground _ _ hs h
  · exact hforeground _ _ (henv s rest s.btn s.usbIrq hs) h
  · exact henv s rest s.btn s.usbIrq hs
  · exact henv s rest b s.usbIrq hs
  · exact henv s rest s.btn true hs
  · exact hengine a _ (henv s rest s.btn s.usbIrq hs)
  · exact hreset _ (henv s rest s.btn s.usbIrq hs)

/-- The records of R27 and R35, the model's own of pulses and draws, and the parameters, between an earlier and a later state. -/
def Grows (s t : State) : Prop :=
  s.faults <+: t.faults ∧ (∀ x, s.refused = some x → t.refused = some x) ∧ s.hist <+: t.hist ∧
    s.pulses <+: t.pulses ∧ t.params = s.params ∧ s.draws ≤ t.draws

theorem Grows.trans {s t u : State} (h : Grows s t) (h' : Grows t u) : Grows s u := by
  obtain ⟨hf, hr, hh, hp, hpar, hd⟩ := h
  obtain ⟨hf', hr', hh', hp', hpar', hd'⟩ := h'
  exact ⟨hf.trans hf', fun x hx => hr' x (hr x hx), hh.trans hh', hp.trans hp', hpar'.trans hpar, hd.trans hd'⟩

theorem grows_recordHalt (e : Halt) (s : State) : Grows s (recordHalt e s) := by
  obtain ⟨-, -, -, -, -, ⟨hpar, -⟩, hh, hp, hd, -⟩ := recordHalt_frame e s
  exact ⟨recordHalt_faults_prefix e s, recordHalt_keeps_refused e s, by rw [hh], by rw [hp], hpar, hd.ge⟩

/-- An atomic step appends to the records and takes nothing from them. -/
theorem grows_runAtomic {a : AtomicStep} {s u : State} (h : runAtomic a s = .ok u) : Grows s u := by
  have hrest : u.faults = s.faults ∧ u.refused = s.refused ∧ u.params = s.params := by
    by_cases hl : IsLine a
    · obtain ⟨⟨-, -, -, ⟨hpar, -⟩, -, hr, -⟩, hf, -⟩ := runAtomic_line_frame hl h
      exact ⟨hf, hr, hpar⟩
    · obtain ⟨⟨-, -, ⟨hpar, -⟩, -, -, hr, -⟩, hf, -⟩ := runAtomic_offLine_frame hl h
      exact ⟨hf, hr, hpar⟩
  obtain ⟨hf, hr, hpar⟩ := hrest
  obtain ⟨es, hh, -⟩ := runAtomic_hist h
  exact ⟨by rw [hf], by simp [hr], ⟨es, hh.symm⟩, (runAtomic_writes h).pulses, hpar, runAtomic_draws h⟩

theorem grows_bootStep (b : Fin 4) (s : State) : Grows s (bootStep b s) := by
  match b with
  | 0 => simp [Grows, bootStep, bootLines_eq]
  | 1 => simp [Grows, bootStep]
  | 2 => simp [Grows, bootStep]
  | 3 => simp [Grows, bootStep]

theorem grows_foreground {s t : State} (h : foreground s = .next t) : Grows s t :=
  foreground_relates (R := Grows) grows_bootStep grows_recordHalt (fun _ _ _ h => h) (fun _ _ _ h => grows_runAtomic h)
    (by simp [Grows]) (by simp [Grows, drainEffect_eq]) (by simp [Grows, cmpEffect]) (by simp [Grows, commitEffect]) h

/-! ### The engine's turn (R124 to R126) -/

theorem engineReadyAct_hist (a : ReadyAct) (s : State) : (engineReadyAct a s).hist = s.hist := by
  cases a <;> rfl

theorem engineReadyAct_epInBusy {a : ReadyAct} {s : State} (h : (engineReadyAct a s).epInBusy = true) :
    s.epInBusy = true := by
  cases a with
  | endpointReset => cases h
  | _ => exact h

/-- After a transmit no arm is outstanding (R125). -/
theorem engineTransmit_epInBusy (s : State) : (engineTransmit s).epInBusy = false := by
  unfold engineTransmit
  split
  · rfl
  · exact Bool.eq_false_iff.mpr ‹_›

theorem engineTransmit_hist (s : State) :
    (engineTransmit s).hist = s.hist ++ if s.epInBusy then [.tx s.txbuf] else [] := by
  unfold engineTransmit
  split <;> simp

/-- The engine's turn passes, or records ISR and the packet it sends, and it arms nothing (R124 to R126). -/
theorem engineTurn_cases (a : EngineActs) (s : State) :
    engineTurn a s = s ∨
      (engineTurn a s).hist = s.hist ++ (.isr :: if a.transmit && s.epInBusy then [.tx s.txbuf] else []) ∧
        ((engineTurn a s).epInBusy = true → s.epInBusy = true) := by
  unfold engineTurn
  split
  · refine .inr ⟨?_, fun h => ?_⟩
    · cases ht : a.transmit <;> cases hb : s.epInBusy <;> cases ho : a.outPacket <;>
        simp [engineWork, engineOutPacket, engineReadyAct_hist, engineTransmit_hist, ht, hb, ho]
    · have hready : (engineReadyAct a.ready
          (if a.transmit then engineTransmit (emit .isr s) else emit .isr s)).epInBusy = true := by
        cases ho : a.outPacket <;> simpa [engineWork, engineOutPacket, ho] using h
      have hsent := engineReadyAct_epInBusy hready
      split at hsent
      · simp [engineTransmit_epInBusy] at hsent
      · exact hsent
  · exact .inl rfl

/-- Settles O56. -/
theorem recordsOnlyGrow : Obligations.RecordsOnlyGrow := by
  intro s t h
  refine step_preserves (P := Grows s) ?_ ?_ ?_ ?_ (by simp [Grows]) h
  · exact fun u _ _ _ hu => hu
  · exact fun u v hu hv => hu.trans (grows_foreground hv)
  · refine fun a u hu => hu.trans ?_
    obtain ⟨-, -, -, -, ⟨hpar, -⟩, -, hf, hr, hpul, hd⟩ := engineTurn_frame a u
    have hh : u.hist <+: (engineTurn a u).hist := by
      rcases engineTurn_cases a u with h | ⟨h, -⟩ <;> simp [h]
    exact ⟨by rw [hf], by simp [hr], hh, by rw [hpul], hpar, hd.ge⟩
  · refine fun u hu => hu.trans ?_
    simp [Grows, resetStep]

/-! ### The ranges (R14, R29, R34) -/

theorem inRange_of_same {s t : State} (hs : InRange s) (hl : SameLink s t) (hn : t.nEdge = s.nEdge) : InRange t := by
  obtain ⟨-, hbit, -, -, -, hlr, hcr, hcf, -, -, hnow⟩ := hl
  simpa only [InRange, hbit, hn, hlr, hcr, hcf, hnow] using hs

/-- A line step stamps with the present time, counts a bit below 8, and saturates NEDGE (R31, R34, R80 to R85). -/
theorem inRange_line {a : AtomicStep} {s u : State} (ha : IsLine a) (hs : InRange s) (h : runAtomic a s = .ok u) :
    InRange u := by
  obtain ⟨hb, hn, hlr, hcr, hcf⟩ := hs
  cases ha with
  | latchHi =>
    cases h
    refine ⟨by simp [latchHiEffect], hn, ?_, hcr, hcf⟩
    cases hq : s.latchQ <;> simp [latchHiEffect, hq, hlr]
  | latchLo =>
    cases h
    rw [latchLoEffect_eq]
    refine ⟨hb, ?_, hlr, hcr, hcf⟩
    dsimp only
    split <;> omega
  | clkHi =>
    cases h
    rw [clkHiEffect_eq]
    refine ⟨hb, ?_, hlr, ?_, hcf⟩
    · dsimp only
      split <;> omega
    · dsimp only
      split <;> omega
  | clkLo =>
    cases h
    rw [clkLoEffect_eq]
    refine ⟨hb, hn, hlr, hcr, fun f hf => ?_⟩
    cases hq : s.clkQ <;> simp [hq] at hf
    · exact hcf f hf
    · exact hf.ge
  | sample =>
    have h8 := sampleEffect_ok h
    cases (sampleEffect_eq h8).symm.trans h
    refine ⟨?_, hn, hlr, hcr, hcf⟩
    change (s.bitcnt + 1).toNat ≤ 8
    bv_omega
  | wait n =>
    cases h
    exact ⟨hb, hn, by simp; omega, by simp; omega, fun f hf => (hcf f hf).trans (by simp)⟩

theorem inRange_runAtomic {a : AtomicStep} {s u : State} (hs : InRange s) (h : runAtomic a s = .ok u) : InRange u := by
  by_cases hl : IsLine a
  · exact inRange_line hl hs h
  · obtain ⟨⟨hlink, hpad, -⟩, -⟩ := runAtomic_offLine_frame hl h
    exact inRange_of_same hs hlink hpad.2.2

theorem inRange_recordHalt (e : Halt) {s : State} (hs : InRange s) : InRange (recordHalt e s) := by
  obtain ⟨hlink, hpad, -⟩ := recordHalt_frame e s
  exact inRange_of_same hs hlink hpad.2.2

theorem inRange_bootStep (b : Fin 4) {s : State} (hs : InRange s) : InRange (bootStep b s) := by
  match b with
  | 0 =>
    obtain ⟨hb, hn, hlr, hcr, hcf⟩ := hs
    simp only [bootStep, bootLines_eq]
    refine ⟨hb, ?_, hlr, hcr, hcf⟩
    dsimp only [setPc]
    split <;> omega
  | 1 => exact hs
  | 2 => exact hs
  | 3 => exact hs

theorem inRange_foreground {s t : State} (hs : InRange s) (h : foreground s = .next t) : InRange t :=
  foreground_relates (R := fun s t => InRange s → InRange t) (fun b _ hs => inRange_bootStep b hs)
    (fun e _ hs => inRange_recordHalt e hs) (fun _ _ _ h => h) (fun _ _ _ h hs => inRange_runAtomic hs h)
    (fun _ hs => hs) (fun s hs => by rw [drainEffect_eq]; exact hs) (fun _ hs => hs) (fun _ hs => hs) h hs

/-- The reset values lie in the ranges, and NEDGE's draw is capped (R34, R37). -/
theorem inRange_resetStep (s : State) : InRange (resetStep s) := by
  simp [InRange, resetStep, State.reset]

/-- Settles O50. -/
theorem resetInRange : Obligations.ResetInRange := by
  simp [Obligations.ResetInRange, InRange, State.reset]

/-- Settles O49: only the foreground and a reset write what the ranges speak of. -/
theorem stepKeepsRanges : Obligations.StepKeepsRanges := by
  intro s t hs h
  refine step_preserves (P := InRange) (fun _ _ _ _ hs => hs) (fun _ _ hs h => inRange_foreground hs h) ?_
    (fun s _ => inRange_resetStep s) hs h
  intro a s hs
  obtain ⟨hlink, hpad, -⟩ := engineTurn_frame a s
  exact inRange_of_same hs hlink hpad.2.2

/-! ### Time (R31) -/

theorem runAtomic_now {a : AtomicStep} {s u : State} (h : runAtomic a s = .ok u) : s.now ≤ u.now := by
  by_cases hl : IsLine a
  · cases hl with
    | latchHi => cases h; simp [latchHiEffect]
    | latchLo => cases h; simp [latchLoEffect_eq]
    | clkHi => cases h; simp [clkHiEffect_eq]
    | clkLo => cases h; simp [clkLoEffect_eq]
    | sample => cases (sampleEffect_eq (sampleEffect_ok h)).symm.trans h; simp
    | wait n => cases h; simp
  · obtain ⟨⟨⟨-, -, -, -, -, -, -, -, -, -, hnow⟩, -⟩, -⟩ := runAtomic_offLine_frame hl h
    exact hnow.ge

theorem bootStep_now (b : Fin 4) (s : State) : (bootStep b s).now = s.now := by
  match b with
  | 0 => simp [bootStep, bootLines_eq]
  | 1 => rfl
  | 2 => rfl
  | 3 => rfl

theorem foreground_now {s t : State} (h : foreground s = .next t) : s.now ≤ t.now :=
  foreground_relates (R := fun s t => s.now ≤ t.now) (fun b s => (bootStep_now b s).ge)
    (fun e s => by rw [recordHalt_eq]) (fun _ _ _ h => h) (fun _ _ _ h => runAtomic_now h) (fun _ => le_rfl)
    (fun s => by simp [drainEffect_eq]) (fun _ => le_rfl) (fun _ => le_rfl) h

/-- Settles O57: only the foreground's turn can move time, and never back. -/
theorem timeNeverDecreases : Obligations.TimeNeverDecreases := by
  intro s t h hreset
  have stays : t.now = s.now →
      s.now ≤ t.now ∧ (s.now < t.now → s.sched.head? = none ∨ s.sched.head? = some .foreground) := fun hnow => ⟨hnow.ge, fun hlt => absurd hlt (by omega)⟩
  rcases step_next h with ⟨hs, h⟩ | ⟨turn, rest, hs, ⟨rfl, h⟩ | ⟨-, rfl⟩ | ⟨b, -, rfl⟩ | ⟨-, rfl⟩ | ⟨a, -, rfl⟩ | ⟨rfl, -⟩⟩
  · exact ⟨foreground_now h, fun _ => .inl (by simp [hs])⟩
  · have hnow := foreground_now h
    exact ⟨hnow, fun _ => .inr (by simp [hs])⟩
  · exact stays rfl
  · exact stays rfl
  · exact stays rfl
  · obtain ⟨⟨-, -, -, -, -, -, -, -, -, -, hnow⟩, -⟩ := engineTurn_frame a { s with sched := rest }
    exact stays hnow
  · exact absurd (by simp [hs]) hreset

end Sys2Proof.Machine
end

section
/-! SUPPORT. The order of the atomic steps within a plan, and where the pc stands after a step (R28, R86, R103, R113). -/

namespace Sys2Proof.Machine

/-! ### What comes just before a step of SEND's tail -/

/-- The step that stands just before this one in every plan, for the steps of SEND behind its entry and for COMMIT (R103, R113). -/
def prior : AtomicStep → Option AtomicStep
  | .sendCopy 0 => some .sendEnter
  | .sendCopy (k + 1) => some (.sendCopy k)
  | .sendExit => some (.sendCopy 2)
  | .sendArm => some .sendExit
  | .commitAndIdle => some .sendArm
  | _ => none

/-- `b` may stand behind `a` in a plan. -/
def Follows (a b : AtomicStep) : Prop := prior b = none ∨ prior b = some a

theorem prior_of_isLine {a : AtomicStep} (h : IsLine a) : prior a = none := by
  cases h <;> rfl

theorem readPlan_isChain (p : Params) : (readPlan p).IsChain Follows :=
  List.isChain_iff_getElem.mpr fun _ _ => .inl (prior_of_isLine (isLine_of_mem_readPlan (List.getElem_mem _)))

theorem sendPlan_isChain : sendPlan.IsChain Follows := by
  simp [sendPlan, Follows, prior]

theorem iterPlan_isChain (p : Params) (ready chg : Bool) : (iterPlan p ready chg).IsChain Follows := by
  cases ready with
  | false => simp [iterPlan, Follows, prior]
  | true =>
    have htail : (AtomicStep.compare :: reportPlan chg).IsChain Follows := by
      cases chg <;> simp [reportPlan, sendPlan, Follows, prior]
    have hhead : [AtomicStep.chkrdy, .drainAndPoll].IsChain Follows := by simp [Follows, prior]
    refine List.isChain_append.mpr ⟨hhead, List.isChain_append.mpr ⟨readPlan_isChain p, htail, ?_⟩, ?_⟩
    · rintro x - y hy
      obtain rfl : AtomicStep.compare = y := by simpa using hy
      exact .inl rfl
    · rintro x - y hy
      obtain rfl : AtomicStep.latchHi = y := by simpa [readPlan] using hy
      exact .inl rfl

theorem planOf_isChain (i : Instr) (s : State) : (planOf i s).IsChain Follows := by
  cases i with
  | read => exact readPlan_isChain s.params
  | send => exact sendPlan_isChain
  | iter => exact iterPlan_isChain s.params _ s.chg
  | _ => exact .nil

theorem planOf_follows {i : Instr} {s : State} {n : Nat} {a b : AtomicStep} (ha : (planOf i s)[n]? = some a)
    (hb : (planOf i s)[n + 1]? = some b) : Follows a b := by
  obtain ⟨_, rfl⟩ := List.getElem?_eq_some_iff.mp ha
  obtain ⟨hlt, rfl⟩ := List.getElem?_eq_some_iff.mp hb
  exact List.isChain_iff_getElem.mp (planOf_isChain i s) n hlt

/-! ### ITER's single steps -/

/-- A step that a list holds once stands at its one place. -/
theorem getElem?_append_cons_iff {α : Type} {l r : List α} {a : α} {n : Nat} (hl : a ∉ l) (hr : a ∉ r) :
    (l ++ a :: r)[n]? = some a ↔ n = l.length := by
  constructor
  · intro h
    rcases lt_trichotomy n l.length with hn | hn | hn
    · rw [List.getElem?_append_left hn] at h
      exact absurd (List.mem_of_getElem? h) hl
    · exact hn
    · obtain ⟨k, rfl⟩ := Nat.exists_eq_add_of_lt hn
      rw [List.getElem?_append_right (by omega), show l.length + k + 1 - l.length = k + 1 by omega,
        List.getElem?_cons_succ] at h
      exact absurd (List.mem_of_getElem? h) hr
  · rintro rfl
    simp

theorem not_mem_readPlan {p : Params} {a : AtomicStep} (ha : ¬ IsLine a) : a ∉ readPlan p :=
  fun h => ha (isLine_of_mem_readPlan h)

/-- CHKRDY is ITER's first step and no other (R113). -/
theorem iterPlan_chkrdy {p : Params} {ready chg : Bool} {n : Nat} :
    (iterPlan p ready chg)[n]? = some .chkrdy ↔ n = 0 := by
  refine getElem?_append_cons_iff (l := []) (by simp) ?_
  have hread : AtomicStep.chkrdy ∉ readPlan p := not_mem_readPlan (by rintro ⟨⟩)
  cases ready <;> cases chg <;> simp [reportPlan, sendPlan, hread]

/-- ITER's compare follows its READ, when the iteration acquires (R113). -/
theorem iterPlan_compare {p : Params} {ready chg : Bool} {n : Nat} :
    (iterPlan p ready chg)[n]? = some .compare ↔ ready = true ∧ n = (readPlan p).length + 2 := by
  have hread : AtomicStep.compare ∉ readPlan p := not_mem_readPlan (by rintro ⟨⟩)
  cases ready with
  | false =>
    have hno : AtomicStep.compare ∉ iterPlan p false chg := by simp [iterPlan]
    exact ⟨fun h => absurd (List.mem_of_getElem? h) hno, fun h => by cases h.1⟩
  | true =>
    have h := getElem?_append_cons_iff (l := AtomicStep.chkrdy :: .drainAndPoll :: readPlan p) (r := reportPlan chg)
      (a := .compare) (n := n) (by simp [hread]) (by cases chg <;> simp [reportPlan, sendPlan])
    simpa [iterPlan] using h

/-- Behind ITER's arm stands its COMMIT (R113, R116). -/
theorem iterPlan_sendArm {p : Params} {ready chg : Bool} {n : Nat} (h : (iterPlan p ready chg)[n]? = some .sendArm) :
    (iterPlan p ready chg)[n + 1]? = some .commitAndIdle := by
  have hread : AtomicStep.sendArm ∉ readPlan p := not_mem_readPlan (by rintro ⟨⟩)
  have hboth : ready = true ∧ chg = true := by
    have hm := List.mem_of_getElem? h
    cases ready <;> cases chg <;> simp [iterPlan, reportPlan, hread] at hm ⊢
  obtain ⟨rfl, rfl⟩ := hboth
  have hsplit : iterPlan p true true =
      (.chkrdy :: .drainAndPoll :: (readPlan p ++
        [.compare, .encode, .sendEnter, .sendCopy 0, .sendCopy 1, .sendCopy 2, .sendExit])) ++
        .sendArm :: [.commitAndIdle] := by
    simp [iterPlan, reportPlan, sendPlan]
  rw [hsplit] at h ⊢
  rw [getElem?_append_cons_iff (by simp [hread]) (by simp)] at h
  subst h
  simp

/-! ### Where the pc stands -/

theorem runAtomic_setup {a : AtomicStep} {s u : State} (h : runAtomic a s = .ok u) : SameSetup s u ∧ u.pc = s.pc := by
  by_cases hl : IsLine a
  · obtain ⟨⟨-, -, -, hsetup, -⟩, -, hpc⟩ := runAtomic_line_frame hl h
    exact ⟨hsetup, hpc⟩
  · obtain ⟨⟨-, -, hsetup, -⟩, -, hpc⟩ := runAtomic_offLine_frame hl h
    exact ⟨hsetup, hpc⟩

/-- A step leaves the plan as it was up to the step itself: CHKRDY and the compare, which choose how ITER goes on, choose only
what comes behind them (R113 to R115). -/
theorem planOf_getElem?_after {i : Instr} {s u : State} {n : Nat} {a : AtomicStep} (ha : (planOf i s)[n]? = some a)
    (hu : runAtomic a s = .ok u) : (planOf i u)[n]? = some a := by
  obtain ⟨⟨hpar, -⟩, -⟩ := runAtomic_setup hu
  have hw := runAtomic_writes hu
  cases i with
  | read => simpa [planOf, hpar] using ha
  | send => exact ha
  | iter =>
    simp only [planOf] at ha ⊢
    by_cases hchk : a = .chkrdy
    · subst hchk
      exact iterPlan_chkrdy.mpr (iterPlan_chkrdy.mp ha)
    obtain ⟨hre, hrp⟩ := hw.ready hchk
    by_cases hcmp : a = .compare
    · subst hcmp
      rw [iterPlan_compare, hre, hrp, hpar]
      exact iterPlan_compare.mp ha
    rw [hre, hrp, hpar, hw.chg hcmp]
    exact ha
  | _ => cases ha

theorem standsAt_at {s : State} {idx sub : Nat} {w : Byte} {i : Instr} (hp : s.pc = .run idx sub)
    (hf : fetch s = some w) (hd : decode w = .ok i) : standsAt s = (planOf i s)[sub]? := by
  simp [standsAt, hp, hf, hd]

theorem standsAt_boot {s : State} {b : Fin 4} (hp : s.pc = .boot b) : standsAt s = none := by
  simp [standsAt, hp]

/-- An operation's first step has no step before it. -/
theorem prior_standsAt_first {s : State} {idx : Nat} {b : AtomicStep} (hp : s.pc = .run idx 0)
    (hb : standsAt s = some b) : prior b = none := by
  simp only [standsAt, hp] at hb
  split at hb
  · cases hb
  split at hb
  · rename_i i _
    cases i with
    | read => cases hb; rfl
    | send => cases hb; rfl
    | iter => cases hb; rfl
    | _ => cases hb
  · cases hb

/-- After a step that is not its plan's last, the pc stands at the next step of the plan as it now is. -/
theorem standsAt_afterStep {s u : State} {idx sub : Nat} {w : Byte} {i : Instr} {a : AtomicStep} {finish : Nat → PC}
    (hp : s.pc = .run idx sub) (hf : fetch s = some w) (hd : decode w = .ok i)
    (hmore : sub + 1 ≠ (planOf i s).length) (hu : runAtomic a s = .ok u) :
    standsAt (setPc (afterStep (planOf i s) finish idx sub) u) = (planOf i u)[sub + 1]? := by
  obtain ⟨⟨-, hprog, -⟩, -⟩ := runAtomic_setup hu
  have hf' : fetch (setPc (.run idx (sub + 1)) u) = some w := by
    simpa [fetch, hp, hprog] using hf
  rw [afterStep, if_neg hmore]
  exact standsAt_at rfl hf' hd

/-- After a step of a plan the pc stands at a step that may follow it, in that plan or at the start of another. -/
theorem follows_standsAt_after {s u : State} {idx sub : Nat} {w : Byte} {i : Instr} {a b : AtomicStep}
    {finish : Nat → PC} (hp : s.pc = .run idx sub) (hf : fetch s = some w) (hd : decode w = .ok i)
    (ha : (planOf i s)[sub]? = some a) (hu : runAtomic a s = .ok u) (hfin : ∀ idx, ∃ k, finish idx = .run k 0)
    (hb : standsAt (setPc (afterStep (planOf i s) finish idx sub) u) = some b) : Follows a b := by
  by_cases hmore : sub + 1 = (planOf i s).length
  · obtain ⟨k, hk⟩ := hfin idx
    rw [afterStep, if_pos hmore, hk] at hb
    exact .inl (prior_standsAt_first rfl hb)
  · rw [standsAt_afterStep hp hf hd hmore hu] at hb
    exact planOf_follows (planOf_getElem?_after ha hu) hb

end Sys2Proof.Machine
end

section
/-! SUPPORT. Buffer atomicity and the hand-off, kept by every step of every agent (R17, R49, R53, R99, R109). -/

namespace Sys2Proof.Machine

/-! ### Histories read from the left -/

theorem lastArm_append (l : Option Bytes3) (h g : List Event) : lastArm l (h ++ g) = lastArm (lastArm l h) g := by
  induction h generalizing l with
  | nil => rfl
  | cons e h ih => cases e <;> exact ih _

theorem txShowsArm_append (l : Option Bytes3) (h g : List Event) :
    TxShowsArm l (h ++ g) ↔ TxShowsArm l h ∧ TxShowsArm (lastArm l h) g := by
  induction h generalizing l with
  | nil => simp [TxShowsArm, lastArm]
  | cons e h ih =>
    cases e with
    | tx r =>
      change (_ ∧ TxShowsArm l (h ++ g)) ↔ (_ ∧ TxShowsArm l h) ∧ TxShowsArm (lastArm l h) g
      rw [ih, and_assoc]
    | _ => exact ih _

theorem armedReport_append (r : Bytes3) (h g : List Event) :
    armedReport r (h ++ g) = armedReport (armedReport r h) g := by
  induction h generalizing r with
  | nil => rfl
  | cons e h ih => cases e <;> exact ih _

theorem lastArm_quiet {es : List Event} (hq : ∀ e ∈ es, Quiet e) (l : Option Bytes3) : lastArm l es = l := by
  induction es with
  | nil => rfl
  | cons e es ih =>
    obtain ⟨he, hes⟩ := List.forall_mem_cons.mp hq
    cases e with
    | arm r => exact he.elim
    | _ => exact ih hes

theorem txShowsArm_quiet {es : List Event} (hq : ∀ e ∈ es, Quiet e) (l : Option Bytes3) : TxShowsArm l es := by
  induction es with
  | nil => trivial
  | cons e es ih =>
    obtain ⟨he, hes⟩ := List.forall_mem_cons.mp hq
    cases e with
    | arm r => exact he.elim
    | tx r => exact he.elim
    | _ => exact ih hes

theorem armedReport_quiet {es : List Event} (hq : ∀ e ∈ es, Quiet e) (r : Bytes3) : armedReport r es = r := by
  induction es with
  | nil => rfl
  | cons e es ih =>
    obtain ⟨he, hes⟩ := List.forall_mem_cons.mp hq
    cases e with
    | arm r => exact he.elim
    | reset => exact he.elim
    | _ => exact ih hes

/-! ### The engine's buffer -/

/-- What buffer atomicity says of the history: the engine owns only the report last armed, and sent only such (R49, R109). -/
def OwnsArmed (s : State) : Prop :=
  (s.epInBusy = true → lastArm none s.hist = some s.txbuf) ∧ TxShowsArm none s.hist

/-- Quiet events change nothing while TXBUF stands, and neither does a change of TXBUF that the engine does not own. -/
theorem ownsArmed_of_quiet {s t : State} {es : List Event} (hs : OwnsArmed s) (hh : t.hist = s.hist ++ es)
    (hq : ∀ e ∈ es, Quiet e) (hown : t.epInBusy = true → s.epInBusy = true ∧ t.txbuf = s.txbuf) : OwnsArmed t := by
  obtain ⟨hlast, htx⟩ := hs
  refine ⟨fun hb => ?_, ?_⟩
  · obtain ⟨hb, hbuf⟩ := hown hb
    rw [hh, lastArm_append, lastArm_quiet hq, hlast hb, hbuf]
  · rw [hh, txShowsArm_append]
    exact ⟨htx, txShowsArm_quiet hq _⟩

theorem copied_of_prior {s : State} {b : AtomicStep} (hb : prior b = none) : Copied s (some b) := by
  cases b with
  | sendCopy k => cases k <;> cases hb
  | sendExit => cases hb
  | sendArm => cases hb
  | _ => trivial

/-- A step that no step of SEND's tail follows leaves the pc where nothing is asked of TXBUF. -/
theorem copied_of_follows {s : State} {a b : AtomicStep} (hab : Follows a b) (h : prior b = some a → Copied s (some b)) :
    Copied s (some b) :=
  hab.elim copied_of_prior h

/-- Inside SEND: each step brings about what is asked of TXBUF at the step behind it (R104 to R107). -/
theorem copied_after {a b : AtomicStep} {s u : State} (hc : Copied s (some a)) (hab : Follows a b)
    (hu : runAtomic a s = .ok u) : Copied u (some b) := by
  refine copied_of_follows hab fun hp => ?_
  match b, hp with
  | .sendCopy 0, hp =>
    obtain rfl : AtomicStep.sendEnter = a := by simpa [prior] using hp
    obtain ⟨hbusy, rfl⟩ := sendEnter_ok hu
    exact ⟨rfl, hbusy⟩
  | .sendCopy 1, hp =>
    obtain rfl : AtomicStep.sendCopy 0 = a := by simpa [prior] using hp
    cases hu
    exact ⟨hc, rfl⟩
  | .sendCopy 2, hp =>
    obtain rfl : AtomicStep.sendCopy 1 = a := by simpa [prior] using hp
    cases hu
    exact ⟨hc.1, hc.2, rfl⟩
  | .sendCopy (k + 3), hp => trivial
  | .sendExit, hp =>
    obtain rfl : AtomicStep.sendCopy 2 = a := by simpa [prior] using hp
    cases hu
    obtain ⟨hheld, h0, h1⟩ := hc
    exact ⟨hheld, by simp [h0, h1]⟩
  | .sendArm, hp =>
    obtain rfl : AtomicStep.sendExit = a := by simpa [prior] using hp
    cases hu
    exact hc.2
  | .commitAndIdle, hp => trivial

/-- A copy step finds the engine off the buffer (R109). -/
theorem sendCopy_held {k : Nat} {s u : State} (hc : Copied s (some (.sendCopy k))) (hu : sendCopy k s = .ok u) :
    s.epInBusy = false := by
  match k with
  | 0 => exact hc.2
  | 1 => exact hc.1.2
  | 2 => exact hc.1.2
  | k + 3 => cases hu

theorem ownsArmed_runAtomic {a : AtomicStep} {s u : State} (hs : OwnsArmed s) (hc : Copied s (some a))
    (hu : runAtomic a s = .ok u) : OwnsArmed u := by
  obtain ⟨es, hh, hq⟩ := runAtomic_hist hu
  have hw := runAtomic_writes hu
  by_cases harm : a = .sendArm
  · subst harm
    cases sendArm_ok hu
    refine ⟨fun _ => ?_, ?_⟩
    · simp [lastArm_append, lastArm]
    · simpa [txShowsArm_append, TxShowsArm] using hs.2
  · refine ownsArmed_of_quiet hs hh (hq harm) fun hb => ?_
    rw [hw.epInBusy harm] at hb
    refine ⟨hb, hw.txbuf ?_⟩
    rintro k rfl
    rw [sendCopy_held hc hu] at hb
    cases hb

theorem bufferAtomic_iff {s : State} : BufferAtomic s ↔ OwnsArmed s ∧ Copied s (standsAt s) := by
  unfold BufferAtomic OwnsArmed
  rw [and_assoc]

/-! ### Where nothing is asked of TXBUF -/

/-- The pc stands at no step that another step of its plan must have prepared. -/
def Fresh (s : State) : Prop := ∀ b, standsAt s = some b → prior b = none

theorem fresh_first {s : State} {idx : Nat} (hp : s.pc = .run idx 0) : Fresh s :=
  fun _ hb => prior_standsAt_first hp hb

theorem fresh_boot {s : State} {b : Fin 4} (hp : s.pc = .boot b) : Fresh s := by
  intro a ha
  rw [standsAt_boot hp] at ha
  cases ha

theorem copied_of_fresh {s : State} (hs : Fresh s) : Copied s (standsAt s) := by
  cases hb : standsAt s with
  | none => trivial
  | some b => exact copied_of_prior (hs b hb)

theorem standsAt_ne_commit_of_fresh {s : State} (hs : Fresh s) : standsAt s ≠ some .commitAndIdle :=
  fun h => by cases hs _ h

/-! ### What the foreground's step is, for the hand-off -/

theorem bootStep_fresh (b : Fin 4) (s : State) : Fresh (bootStep b s) := by
  match b with
  | 0 => exact fresh_boot (b := 1) rfl
  | 1 => exact fresh_boot (b := 2) rfl
  | 2 => exact fresh_boot (b := 3) rfl
  | 3 => exact fresh_first (idx := 0) rfl

/-- Boot leaves the history, the buffer, the report and LAST alone (R138). -/
theorem bootStep_frame (b : Fin 4) (s : State) :
    (bootStep b s).hist = s.hist ∧ (bootStep b s).txbuf = s.txbuf ∧ (bootStep b s).epInBusy = s.epInBusy ∧
      (bootStep b s).report = s.report ∧ (bootStep b s).rstate = s.rstate ∧ (bootStep b s).last = s.last := by
  match b with
  | 0 => simp [bootStep, bootLines_eq]
  | 1 => simp [bootStep]
  | 2 => simp [bootStep]
  | 3 => simp [bootStep]

/-- What the hand-off sees of a one-step operation: quiet events, the buffer as it was, and REPORT with its RSTATE. -/
def QuietFrame (s t : State) : Prop :=
  (∃ es, t.hist = s.hist ++ es ∧ ∀ e ∈ es, Quiet e) ∧ t.txbuf = s.txbuf ∧ t.epInBusy = s.epInBusy ∧
    (s.report = reportOf s.rstate → t.report = reportOf t.rstate) ∧ t.program = s.program

theorem exec_single_quiet {i : Instr} {s t : State} (hi : ¬ Composite i) (h : exec i s = .next t) :
    QuietFrame s t := by
  rcases instr_groups i with hg | hg | hg | rfl
  · obtain ⟨⟨hrep, hrst, -⟩, ⟨htx, -⟩, ⟨-, hbusy, -⟩, ⟨-, hprog, -⟩, -⟩ := linkOperationsFrame i s t hg h
    obtain ⟨a, p, ha, h⟩ := exec_line_next hg h
    refine ⟨?_, htx, hbusy, by rw [hrep, hrst]; exact id, hprog⟩
    rcases settle_next.mp h with ⟨u, hu, rfl⟩ | ⟨e, -, rfl⟩
    · obtain ⟨es, hh, hq⟩ := runAtomic_hist hu
      exact ⟨es, hh, hq (by rintro rfl; cases ha)⟩
    · obtain ⟨-, -, -, -, -, -, hh, -⟩ := recordHalt_frame e s
      exact ⟨[], by simp [hh], by simp⟩
  · obtain ⟨-, -, ⟨htx, -⟩, ⟨-, hbusy, -⟩, ⟨-, hprog, -⟩, hh, -, -, -, -, henc, -⟩ := reportOperationsFrame i s t hg h
    refine ⟨⟨[], by simp [hh], by simp⟩, htx, hbusy, ?_, hprog⟩
    by_cases he : i = .encode
    · subst he
      obtain ⟨p, rfl⟩ := single_ok_next h
      exact fun _ => rfl
    · obtain ⟨hrep, hrst, -⟩ := henc he
      rw [hrep, hrst]
      exact id
  · obtain ⟨-, -, ⟨hrep, hrst, -⟩, ⟨-, hprog, -⟩, -, -, -, -, -, -, hsend, -, -⟩ := transportOperationsFrame i s t hg h
    obtain ⟨htx, -, -, hbusy, -⟩ := hsend (fun he => hi (.inr (.inl he)))
    refine ⟨?_, htx, hbusy, by rw [hrep, hrst]; exact id, hprog⟩
    rcases hg with rfl | rfl | rfl
    · obtain ⟨p, rfl⟩ := single_ok_next h
      exact ⟨[], by simp [chkrdyEffect], by simp⟩
    · obtain ⟨p, rfl⟩ := single_ok_next h
      exact ⟨if s.outPending then [.drainAck] else [], by simp [drainEffect_eq], by cases s.outPending <;> simp [Quiet]⟩
    · exact absurd (.inr (.inl rfl)) hi
  · exact absurd (.inr (.inr rfl)) hi

/-- The hardwired program's one word is ITER's (R117). -/
theorem iter_of_hardwired {s : State} {w : Byte} {i : Instr} (hprog : s.program = .hardwired)
    (hf : fetch s = some w) (hd : decode w = .ok i) : i = .iter := by
  cases hp : s.pc with
  | boot b => simp [fetch, hp] at hf
  | run idx sub =>
    simp only [fetch, hp, hprog, programWords] at hf
    obtain rfl : w = 0xE0 := by simpa using List.mem_of_getElem? hf
    exact Except.ok.inj (hd.symm.trans (by decide))

/-- A step of a plan that took effect, as the hand-off sees it: where the pc stood, and where it may stand now. -/
def PlanStep (a : AtomicStep) (s t : State) : Prop :=
  standsAt s = some a ∧ (∃ u p, runAtomic a s = .ok u ∧ t = setPc p u) ∧ (∀ b, standsAt t = some b → Follows a b) ∧
    (s.program = .hardwired → a = .sendArm → standsAt t = some .commitAndIdle) ∧ ∃ idx sub, t.pc = .run idx sub

theorem afterStep_run {α : Type} {plan : List α} {finish : Nat → PC} (hfin : ∀ idx, ∃ k, finish idx = .run k 0)
    (idx sub : Nat) : ∃ j k, afterStep plan finish idx sub = .run j k := by
  unfold afterStep
  split
  · obtain ⟨k, hk⟩ := hfin idx
    exact ⟨k, 0, hk⟩
  · exact ⟨_, _, rfl⟩

theorem exec_composite_next {i : Instr} {s t : State} {idx sub : Nat} {w : Byte} (hi : Composite i)
    (hp : s.pc = .run idx sub) (hf : fetch s = some w) (hd : decode w = .ok i) (h : exec i s = .next t) :
    (∃ e, t = recordHalt e s) ∨ ∃ a, PlanStep a s t := by
  obtain ⟨finish, hfin, hexec⟩ := exec_composite hi s
  obtain ⟨idx', sub', a, hp', ha, h⟩ := runPlan_next (hexec.symm.trans h)
  obtain ⟨rfl, rfl⟩ : idx = idx' ∧ sub = sub' := by simpa [hp] using hp'
  rcases settle_next.mp h with ⟨u, hu, rfl⟩ | ⟨e, -, rfl⟩
  · refine .inr ⟨a, (standsAt_at hp hf hd).trans ha, ⟨u, _, hu, rfl⟩,
      fun b hb => follows_standsAt_after hp hf hd ha hu hfin hb, ?_, afterStep_run hfin idx sub⟩
    rintro hprog rfl
    obtain rfl := iter_of_hardwired hprog hf hd
    obtain ⟨hlt, -⟩ := List.getElem?_eq_some_iff.mp (iterPlan_sendArm ha)
    rw [standsAt_afterStep hp hf hd hlt.ne hu]
    exact iterPlan_sendArm (planOf_getElem?_after ha hu)
  · exact .inl ⟨e, rfl⟩

/-- What the foreground's step can be, for the hand-off. -/
theorem foreground_handOff {s t : State} (h : foreground s = .next t) :
    (∃ e, t = recordHalt e s) ∨ (∃ b, s.pc = .boot b ∧ t = bootStep b s) ∨
      (QuietFrame s t ∧ Fresh t ∧ s.program ≠ .hardwired ∧ ∃ idx sub, t.pc = .run idx sub) ∨ ∃ a, PlanStep a s t := by
  rcases foreground_next h with ⟨b, hp, rfl⟩ | ⟨idx, sub, w, hp, -, hf, ⟨i, hd, h⟩ | ⟨e, -, rfl⟩⟩
  · exact .inr (.inl ⟨b, hp, rfl⟩)
  · by_cases hi : Composite i
    · exact (exec_composite_next hi hp hf hd h).imp id (.inr ∘ .inr)
    · have hquiet := exec_single_quiet hi h
      obtain ⟨r, hr⟩ := exec_single hi s
      obtain ⟨idx', -, hset⟩ := single_next (hr.symm.trans h)
      rcases settle_next.mp hset with ⟨u, -, rfl⟩ | ⟨e, -, rfl⟩
      · refine .inr (.inr (.inl ⟨hquiet, fresh_first rfl, fun hprog => hi ?_, _, _, rfl⟩))
        exact .inr (.inr (iter_of_hardwired hprog hf hd))
      · exact .inl ⟨e, rfl⟩
  · exact .inl ⟨.refuse _, rfl⟩

/-! ### Buffer atomicity -/

/-- Buffer atomicity speaks of no button, event, schedule, fault or refusal. -/
theorem bufferAtomic_unobserved (s : State) (sched btn usbIrq faults refused) :
    BufferAtomic { s with sched := sched, btn := btn, usbIrq := usbIrq, faults := faults, refused := refused } ↔
      BufferAtomic s :=
  Iff.rfl

theorem bufferAtomic_recordHalt (e : Halt) {s : State} (hs : BufferAtomic s) : BufferAtomic (recordHalt e s) := by
  rw [recordHalt_eq]
  exact (bufferAtomic_unobserved s s.sched s.btn s.usbIrq _ _).mpr hs

theorem bufferAtomic_planStep {a : AtomicStep} {s t : State} (hs : BufferAtomic s) (h : PlanStep a s t) :
    BufferAtomic t := by
  obtain ⟨hown, hc⟩ := bufferAtomic_iff.mp hs
  obtain ⟨hst, ⟨u, p, hu, rfl⟩, hnext, -, -⟩ := h
  rw [hst] at hc
  have hown' : OwnsArmed u := ownsArmed_runAtomic hown hc hu
  refine bufferAtomic_iff.mpr ⟨hown', ?_⟩
  cases hb : standsAt (setPc p u) with
  | none => trivial
  | some b =>
    have hc' : Copied u (some b) := copied_after hc (hnext b hb) hu
    exact hc'

theorem bufferAtomic_foreground {s t : State} (hs : BufferAtomic s) (h : foreground s = .next t) : BufferAtomic t := by
  obtain ⟨hown, -⟩ := bufferAtomic_iff.mp hs
  rcases foreground_handOff h with ⟨e, rfl⟩ | ⟨b, -, rfl⟩ | ⟨⟨⟨es, hh, hq⟩, htx, hbusy, -⟩, hfresh, -⟩ | ⟨a, ha⟩
  · exact bufferAtomic_recordHalt e hs
  · obtain ⟨hh, htx, hbusy, -⟩ := bootStep_frame b s
    refine bufferAtomic_iff.mpr ⟨?_, copied_of_fresh (bootStep_fresh b s)⟩
    exact ownsArmed_of_quiet hown (es := []) (by simp [hh]) (by simp) fun hb => ⟨hbusy ▸ hb, htx⟩
  · exact bufferAtomic_iff.mpr ⟨ownsArmed_of_quiet hown hh hq fun hb => ⟨hbusy ▸ hb, htx⟩, copied_of_fresh hfresh⟩
  · exact bufferAtomic_planStep hs ha

theorem standsAt_engineTurn (a : EngineActs) (s : State) : standsAt (engineTurn a s) = standsAt s := by
  rw [engineTurn_eq]
  rfl

/-- Inside the critical section the engine is masked, and behind it the engine leaves TXBUF and REPORT alone (R54, R124). -/
theorem copied_engineTurn (a : EngineActs) {s : State} {x : Option AtomicStep} (hc : Copied s x) :
    Copied (engineTurn a s) x := by
  cases hi : s.ieUsb with
  | false => rwa [engineTurn_masked a (.inl hi)]
  | true =>
    have hheld : ¬ Held s := fun h => by simp [h.1] at hi
    obtain ⟨-, -, ⟨hrep, -⟩, ⟨htx, -⟩, -⟩ := engineTurn_frame a s
    cases x with
    | none => trivial
    | some b =>
      cases b with
      | sendCopy k =>
        match k with
        | 0 => exact absurd hc hheld
        | 1 => exact absurd hc.1 hheld
        | 2 => exact absurd hc.1 hheld
        | k + 3 => trivial
      | sendExit => exact absurd hc.1 hheld
      | sendArm => exact (htx.trans hc).trans hrep.symm
      | _ => trivial

/-- The packet the engine sends is the report last armed, and it arms nothing (R49, R125). -/
theorem ownsArmed_engineTurn (a : EngineActs) {s : State} (hs : OwnsArmed s) : OwnsArmed (engineTurn a s) := by
  obtain ⟨hlast, htx⟩ := hs
  obtain ⟨-, -, -, ⟨hbuf, -⟩, -⟩ := engineTurn_frame a s
  rcases engineTurn_cases a s with h | ⟨hh, hbusy⟩
  · rw [h]
    exact ⟨hlast, htx⟩
  · refine ⟨fun hb => ?_, ?_⟩
    · rw [hh, lastArm_append, hlast (hbusy hb), hbuf]
      split <;> rfl
    · rw [hh, txShowsArm_append]
      refine ⟨htx, ?_⟩
      split
      · rename_i hsend
        exact ⟨hlast (Bool.and_eq_true_iff.mp hsend).2, trivial⟩
      · trivial

theorem bufferAtomic_engineTurn (a : EngineActs) {s : State} (hs : BufferAtomic s) : BufferAtomic (engineTurn a s) := by
  obtain ⟨hown, hc⟩ := bufferAtomic_iff.mp hs
  refine bufferAtomic_iff.mpr ⟨ownsArmed_engineTurn a hown, ?_⟩
  rw [standsAt_engineTurn]
  exact copied_engineTurn a hc

/-- A reset leaves no arm outstanding, and sends nothing (R137). -/
theorem bufferAtomic_resetStep {s : State} (hs : BufferAtomic s) : BufferAtomic (resetStep s) := by
  refine bufferAtomic_iff.mpr ⟨⟨fun hb => (Bool.false_ne_true hb).elim, ?_⟩, copied_of_fresh (fresh_boot (b := 0) rfl)⟩
  change TxShowsArm none (s.hist ++ [.reset])
  exact (txShowsArm_append _ _ _).mpr ⟨(bufferAtomic_iff.mp hs).1.2, trivial⟩

/-- Buffer atomicity goes through every step of every agent (R49, R53, R54, R109). -/
theorem bufferAtomic_step {s t : State} (hs : BufferAtomic s) (h : step s = .next t) : BufferAtomic t :=
  step_preserves (P := BufferAtomic)
    (fun s sched btn irq hs => (bufferAtomic_unobserved s sched btn irq s.faults s.refused).mpr hs)
    (fun _ _ hs h => bufferAtomic_foreground hs h) (fun a _ hs => bufferAtomic_engineTurn a hs)
    (fun _ hs => bufferAtomic_resetStep hs) hs h

/-- Settles O52. -/
theorem resetBufferAtomic : Obligations.ResetBufferAtomic :=
  bufferAtomic_iff.mpr ⟨⟨fun hb => (Bool.false_ne_true hb).elim, trivial⟩, copied_of_fresh (fresh_boot (b := 0) rfl)⟩

/-! ### REPORT and LAST (R17, R99) -/

theorem report_runAtomic {a : AtomicStep} {s u : State} (hs : s.report = reportOf s.rstate)
    (hu : runAtomic a s = .ok u) : u.report = reportOf u.rstate := by
  by_cases he : a = .encode
  · subst he
    cases hu
    rfl
  · obtain ⟨hrep, hrst⟩ := (runAtomic_writes hu).report he
    rw [hrep, hrst, hs]

/-- Where no COMMIT is due, R99 speaks of LAST. -/
theorem lastIsArmed_of_last {s : State} (hne : standsAt s ≠ some .commitAndIdle)
    (h : (s.program = .hardwired ∨ ∃ b, s.pc = .boot b) → armedReport ⟨0, 0, 0⟩ s.hist = reportOf s.last) :
    LastIsArmed s := by
  intro hprog
  rw [if_neg hne]
  exact h hprog

/-- R99 through a step of a plan: the arm brings RSTATE before LAST, the COMMIT latches it, no other step touches either. -/
theorem lastIsArmed_planStep {a : AtomicStep} {s t : State} (hs : HandOff s) (h : PlanStep a s t) : LastIsArmed t := by
  obtain ⟨hbuf, hrep, hlast⟩ := hs
  obtain ⟨hst, ⟨u, p, hu, rfl⟩, hnext, hcommit, idx, sub, hpc⟩ := h
  obtain ⟨⟨-, hprog, -⟩, -⟩ := runAtomic_setup hu
  have hw := runAtomic_writes hu
  obtain ⟨es, hh, hq⟩ := runAtomic_hist hu
  rintro (hhard | ⟨b, hb⟩)
  swap
  · rw [hpc] at hb
    cases hb
  have hhard' : s.program = .hardwired := hprog.symm.trans hhard
  have hbefore := hlast (.inl hhard')
  rw [hst] at hbefore
  by_cases harm : a = .sendArm
  · subst harm
    rw [if_pos (hcommit hhard' rfl)]
    obtain ⟨-, hc⟩ := bufferAtomic_iff.mp hbuf
    rw [hst] at hc
    cases sendArm_ok hu
    simp only [setPc_hist, setPc_rstate, emit_hist, pulse_hist, armedReport_append]
    exact Eq.trans hc hrep
  · have hne : standsAt (setPc p u) ≠ some .commitAndIdle := fun hc => by
      rcases hnext _ hc with hp | hp
      · cases hp
      · exact harm (Option.some.inj hp).symm
    rw [if_neg hne]
    change armedReport _ u.hist = reportOf u.last
    rw [hh, armedReport_append, armedReport_quiet (hq harm), hbefore]
    by_cases hcom : a = .commitAndIdle
    · subst hcom
      cases hu
      rfl
    · rw [if_neg (by simpa using hcom), hw.last hcom]

theorem handOff_foreground {s t : State} (hs : HandOff s) (h : foreground s = .next t) : HandOff t := by
  have hbuf' := bufferAtomic_foreground hs.1 h
  obtain ⟨hbuf, hrep, hlast⟩ := hs
  rcases foreground_handOff h with ⟨e, rfl⟩ | ⟨b, hp, rfl⟩ | ⟨⟨-, -, -, hrep', hprog⟩, -, hsup, idx, sub, hpc⟩ | ⟨a, ha⟩
  · refine ⟨hbuf', ?_⟩
    rw [recordHalt_eq]
    exact ⟨hrep, hlast⟩
  · obtain ⟨hh, -, -, hr, hrs, hl⟩ := bootStep_frame b s
    refine ⟨hbuf', by rw [hr, hrs, hrep], lastIsArmed_of_last (standsAt_ne_commit_of_fresh (bootStep_fresh b s)) ?_⟩
    intro _
    have hbefore := hlast (.inr ⟨b, hp⟩)
    rw [if_neg (standsAt_ne_commit_of_fresh (fresh_boot hp))] at hbefore
    rw [hh, hl, hbefore]
  · refine ⟨hbuf', hrep' hrep, ?_⟩
    rintro (hhard | ⟨b, hb⟩)
    · exact absurd (hprog.symm.trans hhard) hsup
    · rw [hpc] at hb
      cases hb
  · refine ⟨hbuf', ?_, lastIsArmed_planStep ⟨hbuf, hrep, hlast⟩ ha⟩
    obtain ⟨-, ⟨u, p, hu, rfl⟩, -⟩ := ha
    have hrep' : u.report = reportOf u.rstate := report_runAtomic hrep hu
    exact hrep'

theorem handOff_engineTurn (a : EngineActs) {s : State} (hs : HandOff s) : HandOff (engineTurn a s) := by
  obtain ⟨hbuf, hrep, hlast⟩ := hs
  obtain ⟨-, -, ⟨hr, hrs, -, hl, -⟩, -, ⟨-, hprog, -⟩, hpc, -⟩ := engineTurn_frame a s
  refine ⟨bufferAtomic_engineTurn a hbuf, by rw [hr, hrs, hrep], fun hpre => ?_⟩
  rw [standsAt_engineTurn, hrs, hl, ← hlast (by rwa [hprog, hpc] at hpre)]
  rcases engineTurn_cases a s with h | ⟨hh, -⟩
  · rw [h]
  · rw [hh, armedReport_append]
    split <;> rfl

/-- A reset starts over: no ARM since, and LAST is 0 (R99, R137). -/
theorem handOff_resetStep {s : State} (hs : HandOff s) : HandOff (resetStep s) := by
  refine ⟨bufferAtomic_resetStep hs.1, rfl, lastIsArmed_of_last (standsAt_ne_commit_of_fresh (fresh_boot (b := 0) rfl)) ?_⟩
  intro _
  change armedReport _ (s.hist ++ [.reset]) = _
  rw [armedReport_append]
  rfl

/-- Settles O54. -/
theorem resetHandOff : Obligations.ResetHandOff :=
  ⟨resetBufferAtomic, rfl, lastIsArmed_of_last (standsAt_ne_commit_of_fresh (fresh_boot (b := 0) rfl)) fun _ => rfl⟩

/-- Settles O53: buffer atomicity, REPORT's and R99's clauses go through each agent's step together. -/
theorem stepKeepsHandOff : Obligations.StepKeepsHandOff := by
  intro s t hs h
  exact step_preserves (P := HandOff) (fun _ _ _ _ hs => hs) (fun _ _ hs h => handOff_foreground hs h)
    (fun a _ hs => handOff_engineTurn a hs) (fun _ hs => handOff_resetStep hs) hs h

end Sys2Proof.Machine
end

section
/-! SUPPORT. The family 20_memory: TXBUF's atomicity (R49, R53, R54, R109). -/

namespace Sys2Proof.Machine

/-- Settles O51: the foreground's step keeps `OwnsArmed` and leads from each step of SEND to what `Copied` asks at the
next; the engine keeps both, being masked at every copy step; a reset leaves TXBUF unowned. -/
theorem stepKeepsBufferAtomic : Obligations.StepKeepsBufferAtomic := by
  intro s t hs h
  exact bufferAtomic_step hs h

end Sys2Proof.Machine
end

section
/-! SUPPORT. The family 30_encoding: the decoder and the encoder, delays and READ's plan, SAMPLE and the pad's level, and the stopped
foreground (R58 to R66, R70, R78, R79, R84, R121). -/

namespace Sys2Proof.Machine

/-! ### The two halves of a word (R58) -/

/-- A word is its op and its arg, side by side (R58). -/
theorem opOf_append_argOf (w : Byte) : opOf w ++ argOf w = w :=
  (BitVec.extractLsb'_append_extractLsb'_eq_extractLsb' rfl).trans BitVec.extractLsb'_eq_self

theorem argOf_append (o a : Nibble) : argOf (o ++ a) = a := BitVec.extractLsb'_append_eq_right

/-! ### The format N rows of the opcode map (R59, R60) -/

/-- The word of every operation has the format's shape (R59). -/
theorem format_statement (i : Instr) : Laws.Format.Statement i := by
  cases i with
  | nop => exact Laws.Format.nop
  | latchHi => exact Laws.Format.latchHi
  | latchLo => exact Laws.Format.latchLo
  | clkHi => exact Laws.Format.clkHi
  | clkLo => exact Laws.Format.clkLo
  | sample => exact Laws.Format.sample
  | wait t => exact Laws.Format.wait t
  | read => exact Laws.Format.read
  | chkrdy => exact Laws.Format.chkrdy
  | drain => exact Laws.Format.drain
  | cmp => exact Laws.Format.cmp
  | encode => exact Laws.Format.encode
  | send => exact Laws.Format.send
  | commit => exact Laws.Format.commit
  | iter => exact Laws.Format.iter

/-- A format N operation has no operand, is well-formed, and stands in the map at its op, which is not WAIT's (R59 to R61). -/
theorem format_n {i : Instr} (h : formatOf i = .n) :
    argument i = 0 ∧ wellFormed i = true ∧ opcode i ≠ 0x6 ∧ nMap.lookup (opcode i) = some i := by
  cases i with
  | wait t => cases h
  | _ => decide

/-- The map holds format N operations only, each at its own op (R60). -/
theorem nMap_lookup_some {o : Nibble} {i : Instr} (h : nMap.lookup o = some i) : formatOf i = .n ∧ opcode i = o := by
  have hrows : ∀ row ∈ nMap, formatOf row.2 = .n ∧ opcode row.2 = row.1 := by decide
  obtain ⟨l₁, l₂, hl, -⟩ := List.lookup_eq_some_iff.mp h
  exact hrows (o, i) (by simp [hl])

/-- The map has a row at every op but WAIT's and the reserved one (R60). -/
theorem nMap_lookup_isSome : ∀ o : Nibble, o ≠ 0x6 → o ≠ 0xF → ∃ i, nMap.lookup o = some i := by
  simp only [← Option.isSome_iff_exists]
  decide

/-! ### The decoding rule, a lemma per case (R62) -/

theorem decode_wait {w : Byte} (h : opOf w = 0x6) : decode w = .ok (.wait (argOf w).toNat) := by
  simp [decode, h]

theorem decode_reserved {w : Byte} (h : opOf w = 0xF) : decode w = .error .reservedOp := by
  simp [decode, h]

theorem decode_nonzeroArg {w : Byte} (h6 : opOf w ≠ 0x6) (hF : opOf w ≠ 0xF) (ha : argOf w ≠ 0) :
    decode w = .error .nonzeroArg := by
  simp only [decode, if_neg h6, if_neg hF, if_pos ha]

theorem decode_nMap {w : Byte} {i : Instr} (h6 : opOf w ≠ 0x6) (hF : opOf w ≠ 0xF) (ha : argOf w = 0)
    (hi : nMap.lookup (opOf w) = some i) : decode w = .ok i := by
  simp only [decode, if_neg h6, if_neg hF, ha, ne_eq, not_true_eq_false, if_false, hi]

/-- A word that decodes is a WAIT with its arg for count, or a format N operation's op with arg 0 (R62). -/
theorem decode_ok_cases {w : Byte} {i : Instr} (h : decode w = .ok i) :
    (opOf w = 0x6 ∧ i = .wait (argOf w).toNat) ∨ (argOf w = 0 ∧ formatOf i = .n ∧ opcode i = opOf w) := by
  by_cases h6 : opOf w = 0x6
  · rw [decode_wait h6] at h
    cases h
    exact .inl ⟨h6, rfl⟩
  by_cases hF : opOf w = 0xF
  · rw [decode_reserved hF] at h
    cases h
  by_cases ha : argOf w = 0
  · obtain ⟨j, hj⟩ := nMap_lookup_isSome _ h6 hF
    rw [decode_nMap h6 hF ha hj] at h
    cases h
    exact .inr ⟨ha, nMap_lookup_some hj⟩
  · rw [decode_nonzeroArg h6 hF ha] at h
    cases h

/-- Settles O2: WAIT's count is read back from the arg, which holds it as it is below 16; a format N operation's op is in the map. -/
theorem decodeOfEncode : Obligations.DecodeOfEncode := by
  intro i hwf
  obtain ⟨hop, hF, harg⟩ := format_statement i
  cases hf : formatOf i with
  | n =>
    obtain ⟨-, -, h6, hi⟩ := format_n hf
    rw [← hop] at h6 hF hi
    exact decode_nMap h6 hF (harg hf) hi
  | w =>
    cases i with
    | wait t =>
      have ht : t ≤ 15 := by simpa [wellFormed] using hwf
      have hcount : (argOf (encode (.wait t))).toNat = t := by
        rw [encode, argOf_append]
        exact Nat.mod_eq_of_lt (by omega)
      rw [decode_wait hop, hcount]
    | _ => cases hf

/-- Settles O3: the op and the arg of a word that decodes are those of its operation, and they make up the word. -/
theorem encodeOfDecode : Obligations.EncodeOfDecode := by
  intro w i h
  rcases decode_ok_cases h with ⟨h6, rfl⟩ | ⟨ha, hf, hop⟩
  · refine ⟨decide_eq_true (Nat.le_of_lt_succ (argOf w).isLt), ?_⟩
    calc encode (.wait (argOf w).toNat)
        = 0x6 ++ BitVec.ofNat 4 (argOf w).toNat := rfl
      _ = opOf w ++ argOf w := by rw [h6, BitVec.ofNat_toNat, BitVec.setWidth_eq]
      _ = w := opOf_append_argOf w
  · obtain ⟨harg, hwf, -⟩ := format_n hf
    refine ⟨hwf, ?_⟩
    rw [encode, hop, harg, ← ha, opOf_append_argOf]

/-- The words of one op: all 16 of WAIT's, none of the reserved op's, and one of each other (R62). -/
theorem countP_decodeTableWord_of_op : ∀ o < 16,
    (List.range 16).countP (fun a => (decodeTableWord 8 (16 * o + a)).isSome) =
      if o = 6 then 16 else if o = 15 then 0 else 1 := by decide

/-- The numbers below m * k are k rows of m. -/
theorem range_mul (m k : Nat) : List.range (m * k) = (List.range k).flatMap fun o => (List.range m).map (m * o + ·) := by
  induction k with
  | zero => rfl
  | succ k ih => rw [Nat.mul_succ, List.range_add, ih, List.range_succ, List.flatMap_append, List.flatMap_singleton]

/-- Of the 256 words 16 + 14 spell an operation: the words counted op by op (R62). -/
theorem countP_decodeTableWord : (List.range 256).countP (fun n => (decodeTableWord 8 n).isSome) = 30 := by
  rw [range_mul 16 16, List.countP_flatMap]
  simp only [List.countP_map, Function.comp_def]
  rw [List.map_congr_left fun o ho => countP_decodeTableWord_of_op o (List.mem_range.mp ho)]
  rfl

/-- Settles O4: at an op other than 0x6 and 0xF the map has a row, and the legal words are counted op by op. -/
theorem decodeByCases : Obligations.DecodeByCases := by
  refine ⟨fun w => ?_, countP_decodeTableWord⟩
  split_ifs with h6 hF ha
  · exact decode_wait h6
  · exact decode_reserved hF
  · exact decode_nonzeroArg h6 hF ha
  · obtain ⟨i, hi⟩ := nMap_lookup_isSome _ h6 hF
    exact ⟨i, decode_nMap h6 hF (not_not.mp ha) hi, nMap_lookup_some hi⟩

/-- Settles O1. -/
theorem opcodeMapWords : Obligations.OpcodeMapWords :=
  ⟨rfl, rfl, rfl, rfl, rfl, rfl, rfl, rfl, rfl, rfl⟩

/-! ### Delays and READ's plan (R66, R86, R88) -/

/-- Settles O6: n is 15 times the quotient and the remainder. -/
theorem delayAddsUp : Obligations.DelayAddsUp := by
  intro n
  have hn := Nat.div_add_mod' n 15
  constructor
  · by_cases h : n % 15 = 0
    · simp [delayCounts, h]; omega
    · simp [delayCounts, h]; omega
  · intro t ht
    rcases List.mem_append.mp ht with h15 | hrem
    · obtain rfl := List.eq_of_mem_replicate h15
      decide
    · split at hrem
      · cases hrem
      · obtain rfl := List.mem_singleton.mp hrem
        omega

/-- A delay of 1 to 15 is one WAIT (R66). -/
theorem delayPlan_eq_wait {n : Nat} (h1 : 1 ≤ n) (h15 : n ≤ 15) : delayPlan n = [.wait n] := by
  rcases h15.lt_or_eq with h | rfl
  · have hmod : n % 15 = n := Nat.mod_eq_of_lt h
    simp [delayPlan, delayCounts, Nat.div_eq_of_lt h, hmod, Nat.ne_of_gt h1]
  · rfl

/-- Settles O7: each delay of READ is a single WAIT. -/
theorem readExpansion : Obligations.ReadExpansion := by
  intro p hl1 hl15 hh1 hh15 hc1 hc15
  have hread : readPlan p = [.latchHi, .wait p.wLatch, .latchLo] ++
      (List.replicate 8 [.sample, .clkHi, .wait p.wClkh, .clkLo, .wait p.wClkl]).flatten := by
    simp [readPlan, bitPlan, Config.nBits, delayPlan_eq_wait hl1 hl15, delayPlan_eq_wait hh1 hh15,
      delayPlan_eq_wait hc1 hc15]
  exact ⟨hread, by rw [hread]; rfl⟩

/-! ### The pad's level and SAMPLE (R70, R78, R79, R84) -/

/-- Active low inverts and active high does not (R70). -/
theorem encLevel_eq_xor (p : Polarity) (b : Bool) : encLevel p b = (b ^^ decide (p = .activeLow)) := by
  cases p <;> simp [encLevel]

/-- Settles O58: in each of R78's cases the level is the bit shown, encoded by the polarity. -/
theorem padOutputLevels : Obligations.PadOutputLevels := by
  intro s
  change padLevel s = _
  simp only [padLevel, Bool.not_eq_true', encLevel_eq_xor, getBit]
  split_ifs <;> rfl

/-- Which samples are valid (R79). -/
theorem sampleValid_iff (s : State) :
    sampleValid s = true ↔ s.latchQ = false ∧ s.loadOk = true ∧
      (if s.clkQ = true then s.tClkRise + s.params.wClkh ≤ s.now else s.clkOk = true) := by
  cases hc : s.clkQ <;> simp [sampleValid, clockHeld, hc, and_assoc]

/-- SAMPLE with BITCNT below 8, at its one step (R84). -/
theorem exec_sample {s : State} {idx : Nat} (hp : s.pc = .run idx 0) (hb : s.bitcnt.toNat < 8) :
    exec .sample s = .next
      { s with
        sr := setBit s.sr s.bitcnt.toNat (sampledBit s)
        bitcnt := s.bitcnt + 1
        cur := if s.bitcnt = 7 then setBit s.sr s.bitcnt.toNat (sampledBit s) else s.cur
        draws := if sampleValid s = true then s.draws else s.draws + 1
        hist := s.hist ++ (.smp s.bitcnt (sampledBit s) (sampleValid s) ::
          if s.bitcnt = 7 then [.readDone (setBit s.sr s.bitcnt.toNat (sampledBit s))] else [])
        pc := .run (idx + 1) 0 } := by
  change single (sampleEffect s) s = _
  rw [single_at hp, sampleEffect_eq hb]
  rfl

/-- SAMPLE with all bits read records the fault, at its one step (R84, R121). -/
theorem exec_sample_overrun {s : State} {idx : Nat} (hp : s.pc = .run idx 0) (hb : 8 ≤ s.bitcnt.toNat) :
    exec .sample s = .next { s with faults := s.faults ++ [⟨.sampleOverrun, s.bitcnt.toNat⟩] } := by
  change single (sampleEffect s) s = _
  rw [single_at hp, sampleEffect_overrun hb]
  rfl

/-- Settles O13: the validity and the bit are `sampleValid` and `sampledBit`, and `setBit` writes that one bit of SR. -/
theorem sampleStoresOneBit : Obligations.SampleStoresOneBit := by
  refine ⟨rfl, fun s idx hp h8 => ?_, fun s idx hp hb => ?_⟩
  · have hn : s.bitcnt.toNat = 8 := by rw [h8]; rfl
    rw [exec_sample_overrun hp hn.ge, hn]
  · exact ⟨sampleValid s, sampledBit s, setBit s.sr s.bitcnt.toNat (sampledBit s), sampleValid_iff s, rfl,
      fun j hj => getBit_setBit s.sr _ j _ hj, exec_sample hp hb⟩

/-- The bit a valid SAMPLE stores (R70, R78, R79). -/
theorem sampledBit_of_valid {s : State} (hv : sampleValid s = true) :
    sampledBit s =
      if s.params.padPresent = false then (s.params.absentLevel ^^ decide (s.params.dataPolarity = .activeLow))
      else if s.nEdge < 8 then s.pLoad.getLsbD s.nEdge
      else s.params.fillBit := by
  obtain ⟨hq, -, -⟩ := (sampleValid_iff s).mp hv
  simp only [sampledBit, hv, if_true, padOutputLevels s, hq, Bool.false_eq_true, if_false]
  split_ifs with hpad hedge
  · exact encLevel_eq_xor _ _
  · rw [← encLevel_eq_xor, decLevel_encLevel]
  · rw [← encLevel_eq_xor, decLevel_encLevel]

/-- Settles O15: the stored bit is the sampled one, and a valid sample takes no draw. -/
theorem validSampleReadsButton : Obligations.ValidSampleReadsButton := by
  intro s idx hp hb hv
  refine ⟨_, exec_sample hp hb, ?_, rfl, if_pos hv⟩
  calc getBit (setBit s.sr s.bitcnt.toNat (sampledBit s)) s.bitcnt.toNat
      = sampledBit s := by rw [getBit_setBit _ _ _ _ hb, if_pos rfl]
    _ = _ := sampledBit_of_valid hv

/-! ### The stopped foreground (R63, R121) -/

/-- With a fault or a refusal recorded the foreground, past boot, has no step to take (R63, R121). -/
theorem foregroundReady_of_not_safe {s : State} {idx sub : Nat} (hp : s.pc = .run idx sub) (hs : ¬ Safe s) :
    foregroundReady s = false := by
  rw [Bool.eq_false_iff]
  intro hready
  obtain ⟨⟨hf, hr⟩, -⟩ : (s.faults = [] ∧ s.refused = none) ∧ _ := by simpa [foregroundReady, hp] using hready
  exact hs ⟨hf, hr⟩

/-- With a fault or a refusal recorded the foreground, past boot, answers no next state (R63, R121). -/
theorem foreground_ne_next_of_not_safe {s t : State} {idx sub : Nat} (hp : s.pc = .run idx sub) (hs : ¬ Safe s) :
    foreground s ≠ .next t := by
  intro h
  rcases foreground_next h with ⟨b, hb, -⟩ | ⟨-, -, -, -, hsafe, -⟩
  · rw [hp] at hb
    cases hb
  · exact hs hsafe

/-- Settles O45: only the foreground's turn asks whether the state is safe. -/
theorem stoppedForegroundOthersMove : Obligations.StoppedForegroundOthersMove := by
  intro s idx sub rest hp hsafe
  refine ⟨fun hs t => ?_, fun hs => ?_, fun b hs => step_cons hs, fun hs => step_cons hs, fun a hs => ⟨_, step_cons hs⟩⟩
  · rw [step_nil hs]
    exact foreground_ne_next_of_not_safe hp hsafe
  · rw [step_cons hs, takeTurn, foregroundReady_of_not_safe (s := { s with sched := rest }) hp hsafe]
    rfl

end Sys2Proof.Machine
end

section
/-! SUPPORT. The family 40_controller_link: the line operations, a composite operation run through, READ's result, and ITER's use of READ and
SEND (R76 to R88, R103, R113 to R121). -/

namespace Sys2Proof.Machine

/-! ### The line operations (R80 to R83, R85) -/

theorem latchHiEffect_eq (s : State) :
    latchHiEffect s =
      { s with
        tLatchRise := if s.latchQ = false then s.now else s.tLatchRise
        latchQ := true
        loadOk := false
        sr := 0
        bitcnt := 0
        hist := s.hist ++ [.line .nesLatch true s.now] } := by
  cases hq : s.latchQ <;> simp [latchHiEffect, emit, hq]

/-- Settles O9. -/
theorem latchHiStartsRead : Obligations.LatchHiStartsRead := by
  refine ⟨rfl, fun s idx hp => ?_⟩
  change single (.ok (latchHiEffect s)) s = _
  rw [single_at hp, settle_ok, latchHiEffect_eq]
  rfl

/-- Settles O10. -/
theorem latchLoCaptures : Obligations.LatchLoCaptures := by
  refine ⟨rfl, fun s idx hp => ?_⟩
  change single (.ok (latchLoEffect s)) s = _
  rw [single_at hp, settle_ok, latchLoEffect_eq]
  cases s.latchQ <;> simp [setPc, latchHeld]

/-- The low-time check reads a fall that has been stamped (R82). -/
theorem lowTooShort_iff (s : State) :
    lowTooShort s = true ↔ ∃ f ∈ s.tClkFall, s.now < f + s.params.wClkl := by
  cases hf : s.tClkFall <;> simp [lowTooShort, hf]

/-- Settles O11. -/
theorem clkHiShifts : Obligations.ClkHiShifts := by
  refine ⟨rfl, fun s idx hp => ?_⟩
  change single (.ok (clkHiEffect s)) s = _
  rw [single_at hp, settle_ok, clkHiEffect_eq]
  simp only [setPc, Bool.and_eq_true, Bool.not_eq_true', lowTooShort_iff, and_comm (a := s.params.padPresent = true)]
  cases s.clkQ <;> rfl

/-- Settles O12. -/
theorem clkLoStamps : Obligations.ClkLoStamps := by
  refine ⟨rfl, fun s idx hp => ?_⟩
  change single (.ok (clkLoEffect s)) s = _
  rw [single_at hp, settle_ok, clkLoEffect_eq]
  rfl

/-- The words of WAIT (R60, R61). -/
theorem decode_wait_word : ∀ t ≤ 15, decode (0x60 ||| BitVec.ofNat 8 t) = .ok (.wait t) := by decide

/-- Settles O16. -/
theorem waitAdvancesTime : Obligations.WaitAdvancesTime := by
  refine ⟨decode_wait_word, fun s idx t hp => ?_⟩
  change single (.ok (advance t s)) s = _
  rw [single_at hp, settle_ok]
  rfl

/-- Settles O26: READ's plan starts with LATCH_HI and has more steps. -/
theorem readBeginsWithLatch : Obligations.ReadBeginsWithLatch := by
  refine ⟨rfl, fun s idx hp => ?_⟩
  have hmore : afterStep (readPlan s.params) nextOperation idx 0 = .run idx 1 := if_neg (by simp [readPlan])
  change runPlan runAtomic (readPlan s.params) nextOperation s = _
  rw [runPlan_at hp (a := .latchHi) rfl, hmore]
  change settle (.ok (latchHiEffect s)) _ s = _
  rw [settle_ok, latchHiEffect_eq]
  rfl

/-! ### A fault of SAMPLE (R84, R121) -/

/-- With a fault recorded the foreground, alone, answers the model's stop (R121, log 7). -/
theorem step_fault_alone {s : State} {idx sub : Nat} (hp : s.pc = .run idx sub) (hs : s.sched = [])
    (hf : s.faults ≠ []) : step s = .fault .foregroundStopped := by
  simp [step_nil hs, foreground, hp, hf]

/-- Settles O14: the word runs as SAMPLE, whose fault is recorded; the engine's turn asks nothing of FAULT. -/
theorem ninthSampleStopsForeground : Obligations.NinthSampleStopsForeground := by
  intro s idx hs hsafe hp hf h8
  have hn : s.bitcnt.toNat = 8 := by rw [h8]; rfl
  refine ⟨{ s with faults := [⟨.sampleOverrun, 8⟩] }, ?_, rfl, rfl, step_fault_alone hp hs (by simp), fun a => ?_⟩
  · rw [step_nil hs, foreground_exec hp hsafe hf (i := .sample) rfl, exec_sample_overrun hp hn.ge, hn, hsafe.1]
    rfl
  · rw [step_cons rfl, ← hs]
    rfl

/-! ### The pc and the atomic steps (R30) -/

/-- No atomic step reads or writes the pc (R30, R74). -/
theorem runAtomic_setPc (a : AtomicStep) (q : PC) (s : State) :
    runAtomic a (setPc q s) = (runAtomic a s).map (setPc q) := by
  by_cases hl : IsLine a ∧ (a = .sample → s.bitcnt.toNat < 8)
  · obtain ⟨u, hu, huq⟩ := runAtomic_line_setPc q hl.1 hl.2
    rw [hu, huq]
    rfl
  cases a with
  | latchHi => rfl
  | latchLo => exact absurd ⟨.latchLo, by simp⟩ hl
  | clkHi => exact absurd ⟨.clkHi, by simp⟩ hl
  | clkLo => exact absurd ⟨.clkLo, by simp⟩ hl
  | sample =>
    have h8 : 8 ≤ s.bitcnt.toNat := by
      by_contra h
      exact hl ⟨.sample, fun _ => by omega⟩
    calc sampleEffect (setPc q s)
        = .error (.fault ⟨.sampleOverrun, s.bitcnt.toNat⟩) := sampleEffect_overrun (s := setPc q s) h8
      _ = (sampleEffect s).map (setPc q) := by rw [sampleEffect_overrun h8]; rfl
  | drainAndPoll => cases hr : s.rdyEng <;> simp [runAtomic, drainAndPoll, drainEffect_eq, setPc, hr, Except.map]
  | compare => simp [runAtomic, compareAndBranch_eq, setPc, Except.map]
  | sendEnter => simp only [runAtomic, sendEnter, apply_ite (Except.map (setPc q))]; rfl
  | sendArm => simp only [runAtomic, sendArm, apply_ite (Except.map (setPc q))]; rfl
  | sendCopy k =>
    match k with
    | 0 => rfl
    | 1 => rfl
    | 2 => rfl
    | k + 3 => rfl
  | _ => rfl

/-- What an atomic step that takes effect leaves of the foreground's place: the records, the setup and the pc. -/
theorem runAtomic_keeps {a : AtomicStep} {s u : State} (h : runAtomic a s = .ok u) :
    u.faults = s.faults ∧ u.refused = s.refused ∧ SameSetup s u ∧ u.pc = s.pc := by
  by_cases hl : IsLine a
  · obtain ⟨⟨-, -, -, hsetup, -, href, -⟩, hf, hpc⟩ := runAtomic_line_frame hl h
    exact ⟨hf, href, hsetup, hpc⟩
  · obtain ⟨⟨-, -, hsetup, -, -, href, -⟩, hf, hpc⟩ := runAtomic_offLine_frame hl h
    exact ⟨hf, href, hsetup, hpc⟩

/-! ### Atomic steps in order -/

/-- The effects of atomic steps taken one after the other, up to the first that halts. -/
def runAll (as : List AtomicStep) (s : State) : Except Halt State := as.foldlM (fun s a => runAtomic a s) s

theorem runAll_nil (s : State) : runAll [] s = .ok s := rfl

theorem runAll_append_ok {as bs : List AtomicStep} {s t : State} :
    runAll (as ++ bs) s = .ok t ↔ ∃ m, runAll as s = .ok m ∧ runAll bs m = .ok t := by
  unfold runAll
  rw [List.foldlM_append]
  cases List.foldlM (fun s a => runAtomic a s) s as with
  | ok m => simp [bind, Except.bind]
  | error e => simp [bind, Except.bind]

theorem runAll_cons_ok {a : AtomicStep} {as : List AtomicStep} {s t : State} :
    runAll (a :: as) s = .ok t ↔ ∃ m, runAtomic a s = .ok m ∧ runAll as m = .ok t := by
  unfold runAll
  rw [List.foldlM_cons]
  cases runAtomic a s with
  | ok m => simp [bind, Except.bind]
  | error e => simp [bind, Except.bind]

theorem runAll_singleton (a : AtomicStep) (s : State) : runAll [a] s = runAtomic a s := by
  simp [runAll]

/-- A reflexive and transitive relation that each step's effect is in holds over the whole list. -/
theorem runAll_induction {R : State → State → Prop} {as : List AtomicStep} (hrefl : ∀ s, R s s)
    (htrans : ∀ s m u, R s m → R m u → R s u) (hstep : ∀ a ∈ as, ∀ s u, runAtomic a s = .ok u → R s u) {s t : State}
    (h : runAll as s = .ok t) : R s t := by
  induction as generalizing s with
  | nil => cases h; exact hrefl _
  | cons a as ih =>
    obtain ⟨hhead, htail⟩ := List.forall_mem_cons.mp hstep
    obtain ⟨m, hm, h⟩ := runAll_cons_ok.mp h
    exact htrans s m t (hhead s m hm) (ih htail h)

/-- An atomic step list that takes effect leaves the foreground's place as it was. -/
theorem runAll_keeps {as : List AtomicStep} {s u : State} (h : runAll as s = .ok u) :
    u.faults = s.faults ∧ u.refused = s.refused ∧ SameSetup s u ∧ u.pc = s.pc :=
  runAll_induction (R := fun s u => u.faults = s.faults ∧ u.refused = s.refused ∧ SameSetup s u ∧ u.pc = s.pc)
    (fun _ => ⟨rfl, rfl, ⟨rfl, rfl, rfl⟩, rfl⟩)
    (fun _ _ _ ⟨hf, hr, ⟨hpar, hprog, hs⟩, hpc⟩ ⟨hf', hr', ⟨hpar', hprog', hs'⟩, hpc'⟩ =>
      ⟨hf'.trans hf, hr'.trans hr, ⟨hpar'.trans hpar, hprog'.trans hprog, hs'.trans hs⟩, hpc'.trans hpc⟩)
    (fun _ _ _ _ h => runAtomic_keeps h) h

/-! ### A composite operation run through (R30, R86, R103, R113) -/

/-- Only ITER's plan holds the two steps that choose how a plan goes on (R113 to R115). -/
theorem iter_of_mem_planOf {i : Instr} {s : State} {a : AtomicStep} (ha : a = .chkrdy ∨ a = .compare)
    (hm : a ∈ planOf i s) : i = .iter := by
  have hline : ¬ IsLine a := by rcases ha with rfl | rfl <;> rintro ⟨⟩
  cases i with
  | iter => rfl
  | read => exact absurd hm (not_mem_readPlan hline)
  | send => rcases ha with rfl | rfl <;> simp [planOf, sendPlan] at hm
  | _ => cases hm

/-- ITER's plan when the iteration acquires, split at its compare (R113). -/
theorem iterPlan_ready (p : Params) (chg : Bool) :
    iterPlan p true chg = (.chkrdy :: .drainAndPoll :: readPlan p) ++ .compare :: reportPlan chg := rfl

theorem reportPlan_ne_nil (chg : Bool) : reportPlan chg ≠ [] := by cases chg <;> simp [reportPlan]

/-- The plan that stands after a step was, up to that step, the plan before it; and the step is the last of both or of neither
(R113 to R115). -/
theorem planOf_before {i : Instr} {m u : State} {as : List AtomicStep} {a : AtomicStep} (h : runAtomic a m = .ok u)
    (hpre : as ++ [a] <+: planOf i u) :
    as ++ [a] <+: planOf i m ∧ (as ++ [a] = planOf i m ↔ as ++ [a] = planOf i u) := by
  obtain ⟨-, -, ⟨hpar, -⟩, -⟩ := runAtomic_keeps h
  have hw := runAtomic_writes h
  obtain ⟨rest, hrest⟩ := hpre
  have hat : (planOf i u)[as.length]? = some a := by simp [← hrest]
  by_cases hchk : a = .chkrdy
  · subst hchk
    obtain rfl := iter_of_mem_planOf (.inl rfl) (List.mem_of_getElem? hat)
    obtain rfl : as = [] := List.length_eq_zero_iff.mp (iterPlan_chkrdy.mp hat)
    simp [planOf, iterPlan]
  by_cases hcmp : a = .compare
  · subst hcmp
    obtain rfl := iter_of_mem_planOf (.inr rfl) (List.mem_of_getElem? hat)
    obtain ⟨hready, hlen⟩ := iterPlan_compare.mp hat
    obtain ⟨hre, hrp⟩ := hw.ready (by simp)
    simp only [planOf, hready, iterPlan_ready, List.append_assoc] at hrest ⊢
    obtain ⟨rfl, -⟩ := List.append_inj hrest (by simp [hlen])
    rw [hre, hrp] at hready
    rw [hready, hpar, iterPlan_ready]
    exact ⟨⟨reportPlan m.chg, by simp⟩, iff_of_false (by simp [reportPlan_ne_nil]) (by simp [reportPlan_ne_nil])⟩
  · have hplan : planOf i u = planOf i m := by
      obtain ⟨hre, hrp⟩ := hw.ready hchk
      cases i <;> simp [planOf, hpar, hre, hrp, hw.chg hcmp]
    rw [← hplan]
    exact ⟨⟨rest, hrest⟩, Iff.rfl⟩

/-- Where a composite operation's last step leaves the pc (R74, R117). -/
def finishOf (i : Instr) (p : Program) : Nat → PC :=
  if i = .iter then iterFinish p else nextOperation

theorem exec_eq_runPlan {i : Instr} (hi : Composite i) (s : State) :
    exec i s = runPlan runAtomic (planOf i s) (finishOf i s.program) s := by
  rcases hi with rfl | rfl | rfl <;> rfl

theorem run_succ_iff {n : Nat} {s t : core.State} :
    Host.Core.run core (n + 1) s = .next t ↔ ∃ m, core.step s = .next m ∧ Host.Core.run core n m = .next t := by
  rw [Host.Core.run]
  cases core.step s <;> simp

/-- A run goes on with one step more. -/
theorem run_snoc {n : Nat} {s t u : core.State} (h : Host.Core.run core n s = .next t) (hu : core.step t = .next u) :
    Host.Core.run core (n + 1) s = .next u := by
  induction n generalizing s with
  | zero => cases h; exact run_succ_iff.mpr ⟨u, hu, rfl⟩
  | succ n ih =>
    obtain ⟨m, hm, h⟩ := run_succ_iff.mp h
    exact run_succ_iff.mpr ⟨m, hm, ih h⟩

/-- The foreground, alone and free to step, stands at the start of an operation. -/
structure Begins (i : Instr) (idx : Nat) (s : State) : Prop where
  alone : s.sched = []
  safe : Safe s
  pc : s.pc = .run idx 0
  word : ∃ w, fetch s = some w ∧ decode w = .ok i

/-- Inside an operation: the step that the plan then holds, after the effects of the steps before it. -/
theorem step_within {i : Instr} {idx : Nat} {s m u : State} {as : List AtomicStep} {a : AtomicStep}
    (hi : Composite i) (hs : Begins i idx s) (hm : runAll as s = .ok m) (ha : (planOf i m)[as.length]? = some a)
    (hu : runAtomic a m = .ok u) :
    step (setPc (.run idx as.length) m) =
      .next (setPc (afterStep (planOf i m) (finishOf i s.program) idx as.length) u) := by
  obtain ⟨halone, ⟨hf, hr⟩, hpc, w, hw, hd⟩ := hs
  obtain ⟨hf', hr', ⟨-, hprog, hsched⟩, -⟩ := runAll_keeps hm
  have hword : fetch (setPc (.run idx as.length) m) = some w := by simpa [fetch, hpc, hprog] using hw
  have hsafe : Safe (setPc (.run idx as.length) m) := ⟨hf'.trans hf, hr'.trans hr⟩
  have hplan : planOf i (setPc (.run idx as.length) m) = planOf i m := by cases i <;> rfl
  rw [step_nil (s := setPc (.run idx as.length) m) (hsched.trans halone), foreground_exec rfl hsafe hword hd,
    exec_eq_runPlan hi, hplan, runPlan_at rfl ha, runAtomic_setPc, hu, setPc_program, hprog]
  rfl

theorem planOf_ne_nil {i : Instr} (hi : Composite i) (s : State) : [] ≠ planOf i s := by
  rcases hi with rfl | rfl | rfl <;> simp [planOf, readPlan, sendPlan, iterPlan]

/-- The first steps of a composite operation, run with no other agent's turn between them, take effect in order. -/
theorem run_steps {i : Instr} {idx : Nat} {s u : State} {as : List AtomicStep} (hi : Composite i) (hs : Begins i idx s)
    (hu : runAll as s = .ok u) (hpre : as <+: planOf i u) :
    Host.Core.run core as.length s =
      .next (setPc (if as = planOf i u then finishOf i s.program idx else .run idx as.length) u) := by
  induction as using List.reverseRecOn generalizing u with
  | nil =>
    cases hu
    rw [if_neg (planOf_ne_nil hi s), List.length_nil, ← hs.pc]
    rfl
  | append_singleton as a ih =>
    obtain ⟨m, hm, hu⟩ := runAll_append_ok.mp hu
    rw [runAll_singleton] at hu
    obtain ⟨hprem, hlast⟩ := planOf_before hu hpre
    have hlt : as.length < (planOf i m).length := by simpa using hprem.length_le
    have hat : (planOf i m)[as.length]? = some a := by
      obtain ⟨rest, hrest⟩ := hprem
      simp [← hrest]
    have hrun := ih hm ((List.prefix_append as [a]).trans hprem)
    rw [if_neg (fun h => hlt.ne (congrArg List.length h))] at hrun
    have hpc : afterStep (planOf i m) (finishOf i s.program) idx as.length =
        if as ++ [a] = planOf i u then finishOf i s.program idx else .run idx (as ++ [a]).length := by
      have hlen : as.length + 1 = (planOf i m).length ↔ as ++ [a] = planOf i u := by
        rw [← hlast]
        exact ⟨fun h => hprem.eq_of_length (by simpa using h), fun h => by simp [← h]⟩
      simp [afterStep, hlen]
    rw [← hpc, List.length_append]
    exact run_snoc hrun (step_within hi hs hm hat hu)

/-- A composite operation, run through with no other agent's turn between its steps, is its atomic steps in order: those of the
plan as it stands in the end (R30, R86, R103, R113). -/
theorem run_composite {i : Instr} {idx : Nat} {s u : State} (hi : Composite i) (hs : Begins i idx s)
    (hu : runAll (planOf i u) s = .ok u) :
    Host.Core.run core (planOf i u).length s = .next (setPc (finishOf i s.program idx) u) := by
  have hrun := run_steps hi hs hu List.prefix_rfl
  rwa [if_pos rfl] at hrun

/-! ### What atomic steps leave alone (R38, R48) -/

/-- Line steps stay within the link. -/
theorem runAll_line_frame {as : List AtomicStep} {s u : State} (ha : ∀ a ∈ as, IsLine a) (h : runAll as s = .ok u) :
    LinkFrame s u := by
  refine runAll_induction (R := LinkFrame) ?_ ?_ (fun a hm _ _ h => (runAtomic_line_frame (ha a hm) h).1) h
  · simp [LinkFrame, SameReport, SameAdapter, SameEngine, SameSetup]
  · simp +contextual [LinkFrame, SameReport, SameAdapter, SameEngine, SameSetup]

theorem arms_append (h g : List Event) : arms (h ++ g) = arms h ++ arms g := List.filterMap_append

theorem arms_quiet {es : List Event} (hq : ∀ e ∈ es, Quiet e) : arms es = [] := by
  refine List.filterMap_eq_nil_iff.mpr fun e he => ?_
  cases e with
  | arm r => exact (hq _ he).elim
  | _ => rfl

/-- Only SEND's arm enqueues a report (R48, R107). -/
theorem runAll_arms {as : List AtomicStep} {s u : State} (ha : .sendArm ∉ as) (h : runAll as s = .ok u) :
    arms u.hist = arms s.hist := by
  refine runAll_induction (R := fun s u => arms u.hist = arms s.hist) (fun _ => rfl) (fun _ _ _ h h' => h'.trans h)
    (fun a hm s u hu => ?_) h
  obtain ⟨es, hh, hq⟩ := runAtomic_hist hu
  rw [hh, arms_append, arms_quiet (hq (fun h => ha (h ▸ hm))), List.append_nil]

/-! ### READ run through (R66, R76 to R79, R86 to R88) -/

theorem runAll_waits (ts : List Nat) (s : State) : runAll (ts.map .wait) s = .ok (advance ts.sum s) := by
  induction ts generalizing s with
  | nil => rfl
  | cons t ts ih =>
    refine runAll_cons_ok.mpr ⟨_, rfl, ?_⟩
    rw [ih]
    simp [advance, Nat.add_assoc]

/-- A delay lets its whole time pass (R66). -/
theorem runAll_delayPlan (n : Nat) (s : State) : runAll (delayPlan n) s = .ok (advance n s) := by
  rw [delayPlan, runAll_waits, (delayAddsUp n).1]

/-- READ's strobe: the latch high for W_LATCH (R86). -/
def strobePlan (p : Params) : List AtomicStep := .latchHi :: (delayPlan p.wLatch ++ [AtomicStep.latchLo])

/-- READ's clock pulse and the low time behind it (R86). -/
def pulsePlan (p : Params) : List AtomicStep := .clkHi :: (delayPlan p.wClkh ++ AtomicStep.clkLo :: delayPlan p.wClkl)

theorem bitPlan_eq (p : Params) : bitPlan p = .sample :: pulsePlan p := by
  simp [bitPlan, pulsePlan]

theorem readPlan_eq (p : Params) : readPlan p = strobePlan p ++ (List.replicate 8 (bitPlan p)).flatten := by
  rw [readPlan, strobePlan, Config.nBits, List.cons_append, List.append_assoc]
  rfl

/-- READ's strobe holds the latch for W_LATCH, so the load is good and a present pad has captured its buttons (R76, R80, R81). -/
theorem runAll_strobe {s : State} (hrise : s.tLatchRise ≤ s.now) :
    runAll (strobePlan s.params) s = .ok
      { s with
        tLatchRise := if s.latchQ = false then s.now else s.tLatchRise
        latchQ := false
        loadOk := true
        clkOk := true
        sr := 0
        bitcnt := 0
        pLoad := if s.params.padPresent then s.btn else s.pLoad
        nEdge := if s.params.padPresent then 0 else s.nEdge
        now := s.now + s.params.wLatch
        hist := s.hist ++ [.line .nesLatch true s.now, .line .nesLatch false (s.now + s.params.wLatch)] } := by
  refine runAll_cons_ok.mpr ⟨_, rfl, runAll_append_ok.mpr ⟨_, runAll_delayPlan _ _, ?_⟩⟩
  change Except.ok (latchLoEffect (advance s.params.wLatch (latchHiEffect s))) = _
  have hheld : (if s.latchQ = false then s.now else s.tLatchRise) ≤ s.now := by split <;> omega
  simp [latchLoEffect_eq, latchHiEffect_eq, advance, latchHeld, hheld]

/-- A clock pulse with its low time, where the clock has been low long enough: a present pad shifts once, and both times are
kept (R77, R82, R83, R86). -/
theorem runAll_clockPulse {s : State} (hlatch : s.latchQ = false) (hclk : s.clkQ = false)
    (hlow : ∀ f, s.tClkFall = some f → f + s.params.wClkl ≤ s.now) :
    runAll (pulsePlan s.params) s = .ok
      { s with
        tClkRise := s.now
        tClkFall := some (s.now + s.params.wClkh)
        clkOk := true
        nEdge := if s.params.padPresent then min (s.nEdge + 1) 8 else s.nEdge
        now := s.now + s.params.wClkh + s.params.wClkl
        hist := s.hist ++ [.line .nesClk true s.now, .line .nesClk false (s.now + s.params.wClkh)] } := by
  have hlong : lowTooShort s = false := by
    rw [Bool.eq_false_iff, ne_eq, lowTooShort_iff]
    rintro ⟨f, hf, hlt⟩
    exact absurd (hlow f hf) (by omega)
  refine runAll_cons_ok.mpr ⟨_, rfl, runAll_append_ok.mpr ⟨_, runAll_delayPlan _ _, runAll_cons_ok.mpr ⟨_, rfl, ?_⟩⟩⟩
  rw [runAll_delayPlan]
  simp [clkHiEffect_eq, clkLoEffect_eq, advance, clockHeld, hlatch, hclk, hlong]

/-- The link and the pad where READ stands before bit k of a read that began in s₀ (R76 to R79, R86, R88). -/
structure BitStarts (s₀ : State) (k : Nat) (s : State) : Prop where
  latch : s.latchQ = false
  clk : s.clkQ = false
  loadOk : s.loadOk = true
  clkOk : s.clkOk = true
  /-- The clock has been low long enough for the next pulse. -/
  low : ∀ f, s.tClkFall = some f → f + s.params.wClkl ≤ s.now
  count : s.bitcnt.toNat = k
  bits : ∀ j < k, getBit s.sr j = getBit (readResult s₀) j
  cur : k = 8 → s.cur = s.sr
  pad : s.params.padPresent = true → s.pLoad = readResult s₀ ∧ s.nEdge = k
  now : s.now = s₀.now + s.params.wLatch + k * (s.params.wClkh + s.params.wClkl)
  draws : s.draws = s₀.draws
  params : s.params = s₀.params

theorem bitStarts_strobe {s : State} (hs : ReadStarts s) :
    ∃ u, runAll (strobePlan s.params) s = .ok u ∧ BitStarts s 0 u := by
  obtain ⟨hclk, hlow, hrise⟩ := hs
  exact ⟨_, runAll_strobe hrise,
    { latch := rfl
      clk := hclk
      loadOk := rfl
      clkOk := rfl
      low := hlow
      count := rfl
      bits := by simp
      cur := by simp
      pad := fun hp => by simp [readResult, show s.params.padPresent = true from hp]
      now := by simp
      draws := rfl
      params := rfl }⟩

theorem BitStarts.valid {s₀ s : State} {k : Nat} (h : BitStarts s₀ k s) : sampleValid s = true :=
  (sampleValid_iff s).mpr ⟨h.latch, h.loadOk, by simp [h.clk, h.clkOk]⟩

/-- The bit that a SAMPLE here stores is bit k of what the read returns: the button the pad shows, or the absent
controller's constant (R78, R79, R87). -/
theorem BitStarts.sampledBit_eq {s₀ s : State} {k : Nat} (h : BitStarts s₀ k s) (hk : k < 8) :
    sampledBit s = getBit (readResult s₀) k := by
  rw [sampledBit_of_valid h.valid]
  cases hp : s.params.padPresent with
  | true =>
    obtain ⟨hload, hedge⟩ := h.pad hp
    simp [hload, hedge, hk, getBit]
  | false =>
    rw [if_pos rfl, ← encLevel_eq_xor, h.params]
    have hones : getBit 0xFF k = true ∧ getBit 0x00 k = false := by interval_cases k <;> decide
    rw [h.params] at hp
    simp only [readResult, hp, Bool.false_eq_true, if_false, apply_ite (getBit · k), hones]
    cases hd : decLevel s₀.params.dataPolarity s₀.params.absentLevel <;> exact hd

/-- One bit of READ: its SAMPLE stores bit k, and its pulse leads to the next (R86). -/
theorem BitStarts.succ {s₀ s : State} {k : Nat} (h : BitStarts s₀ k s) (hk : k < 8) :
    ∃ u, runAll (bitPlan s.params) s = .ok u ∧ BitStarts s₀ (k + 1) u := by
  have hcount : s.bitcnt.toNat < 8 := h.count.symm ▸ hk
  have heighth : s.bitcnt = 7 ↔ k = 7 := by rw [← BitVec.toNat_inj, h.count]; rfl
  rw [bitPlan_eq]
  refine ⟨_, runAll_cons_ok.mpr ⟨_, sampleEffect_eq hcount, runAll_clockPulse h.latch h.clk h.low⟩, ?_⟩
  simp only [h.valid, h.sampledBit_eq hk, h.count, heighth, if_true]
  exact
    { latch := h.latch
      clk := h.clk
      loadOk := h.loadOk
      clkOk := rfl
      low := by simp
      count := by
        have := h.count
        simp only
        bv_omega
      bits := fun j hj => by
        simp only
        rw [getBit_setBit _ _ _ _ (by omega)]
        split
        · subst j; rfl
        · exact h.bits j (by omega)
      cur := fun h8 => if_pos (by omega)
      pad := fun hp => by
        obtain ⟨hload, hedge⟩ := h.pad hp
        have hp' : s.params.padPresent = true := hp
        exact ⟨hload, by simp only [hp', hedge, if_true]; omega⟩
      now := by simp only [h.now]; ring
      draws := h.draws
      params := h.params }

/-- READ's next n bits (R86). -/
theorem BitStarts.add {s₀ s : State} {k n : Nat} (h : BitStarts s₀ k s) (hn : k + n ≤ 8) :
    ∃ u, runAll (List.replicate n (bitPlan s.params)).flatten s = .ok u ∧ BitStarts s₀ (k + n) u := by
  induction n generalizing k s with
  | zero => exact ⟨s, rfl, h⟩
  | succ n ih =>
    obtain ⟨m, hm, h'⟩ := h.succ (by omega)
    obtain ⟨u, hu, h''⟩ := ih h' (by omega)
    rw [h'.params, ← h.params] at hu
    exact ⟨u, runAll_append_ok.mpr ⟨m, hm, hu⟩, by rwa [Nat.add_right_comm] at h''⟩

/-- A byte is its 8 bits. -/
theorem byte_ext {v w : Byte} (h : ∀ j < 8, getBit v j = getBit w j) : v = w :=
  BitVec.eq_of_getLsbD_eq fun j hj => h j hj

/-- READ's steps from where a read may start: the read is complete, with the result in CUR (R87, R88). -/
theorem runAll_readPlan {s : State} (hs : ReadStarts s) :
    ∃ u, runAll (readPlan s.params) s = .ok u ∧ BitStarts s 8 u := by
  obtain ⟨m, hm, h0⟩ := bitStarts_strobe hs
  obtain ⟨u, hu, h8⟩ := h0.add (n := 8) (by omega)
  rw [h0.params] at hu
  rw [readPlan_eq]
  exact ⟨u, runAll_append_ok.mpr ⟨m, hm, hu⟩, h8⟩

theorem BitStarts.sr_eq {s₀ s : State} (h : BitStarts s₀ 8 s) : s.sr = readResult s₀ := byte_ext h.bits

theorem BitStarts.cur_eq {s₀ s : State} (h : BitStarts s₀ 8 s) : s.cur = readResult s₀ := (h.cur rfl).trans h.sr_eq

theorem BitStarts.now_eq {s₀ s : State} (h : BitStarts s₀ 8 s) : s.now = s₀.now + readTime s₀.params := by
  rw [h.now, h.params, readTime, Nat.add_assoc]

/-- Settles O28: READ run through is its steps in order, line steps all; where bit 8 would start, the read is complete. -/
theorem readReturnsButtons : Obligations.ReadReturnsButtons := by
  intro s idx hsched hsafe hpc hf hs
  obtain ⟨u, hu, h⟩ := runAll_readPlan hs
  obtain ⟨hrep, had, heng, hsetup, hbtn, href, hpul⟩ := runAll_line_frame (fun _ ha => isLine_of_mem_readPlan ha) hu
  obtain ⟨hfaults, -⟩ := runAll_keeps hu
  have harms := runAll_arms (not_mem_readPlan (by rintro ⟨⟩)) hu
  have hplan : planOf .read u = readPlan s.params := by rw [planOf, h.params]
  have hrun := run_composite (i := .read) (.inl rfl) ⟨hsched, hsafe, hpc, _, hf, rfl⟩ (hplan ▸ hu)
  rw [hplan] at hrun
  exact ⟨_, hrun, h.cur_eq, h.sr_eq, BitVec.eq_of_toNat_eq h.count, h.latch, h.clk, h.now_eq, rfl, h.draws, hbtn,
    hfaults.trans hsafe.1, href.trans hsafe.2, harms, hpul, hrep, had, heng, hsetup⟩

/-! ### ITER's READ and SEND steps (R113) -/

/-- READ's steps stand in ITER's plan two steps further on (R113). -/
theorem iterPlan_getElem?_read {p : Params} {chg : Bool} {j : Nat} (hj : j < (readPlan p).length) :
    (iterPlan p true chg)[2 + j]? = (readPlan p)[j]? := by
  rw [iterPlan_ready, List.getElem?_append_left (by simp; omega), Nat.add_comm]
  rfl

/-- SEND's steps stand in a reporting ITER's plan four steps behind READ's (R113, R116). -/
theorem iterPlan_getElem?_send {p : Params} {j : Nat} (hj : j < 6) :
    (iterPlan p true true)[4 + (readPlan p).length + j]? = sendPlan[j]? := by
  have hat : 4 + (readPlan p).length + j = (AtomicStep.chkrdy :: .drainAndPoll :: readPlan p).length + (2 + j) := by
    simp; omega
  rw [iterPlan_ready, hat, List.getElem?_append_right (by omega), Nat.add_sub_cancel_left, Nat.add_comm]
  exact List.getElem?_append_left hj

theorem length_iterPlan_ready (p : Params) (chg : Bool) :
    (iterPlan p true chg).length = 3 + (readPlan p).length + (reportPlan chg).length := by
  rw [iterPlan_ready]
  simp
  omega

/-- A step of an iteration that acquires, but its last (R113). -/
theorem exec_iter_at {s : State} {idx sub : Nat} {a : AtomicStep} (hready : (s.rdyEng && s.rdyEp) = true)
    (hp : s.pc = .run idx sub) (ha : (iterPlan s.params true s.chg)[sub]? = some a)
    (hmore : sub + 1 < (iterPlan s.params true s.chg).length) :
    exec .iter s = settle (runAtomic a s) (.run idx (sub + 1)) s := by
  change runPlan runAtomic (iterPlan s.params (s.rdyEng && s.rdyEp) s.chg) (iterFinish s.program) s = _
  rw [hready, runPlan_at hp ha, afterStep, if_neg hmore.ne]

/-- A READ step of an iteration is READ's (R113). -/
theorem exec_iter_read {s t : State} {idx j : Nat} (hready : (s.rdyEng && s.rdyEp) = true)
    (hj : j < (readPlan s.params).length) (hp : s.pc = .run idx (2 + j))
    (h8 : (readPlan s.params)[j]? = some .sample → s.bitcnt.toNat < 8) :
    (exec .read (setPc (.run idx j) s) = .next t → exec .iter s = .next (setPc (.run idx (3 + j)) t)) ∧
      ∃ u, exec .iter s = .next u ∧ u.pc = .run idx (3 + j) := by
  obtain ⟨a, ha⟩ : ∃ a, (readPlan s.params)[j]? = some a := ⟨_, List.getElem?_eq_getElem hj⟩
  obtain ⟨u, hu, huq⟩ :=
    runAtomic_line_setPc (.run idx j) (isLine_of_mem_readPlan (List.mem_of_getElem? ha)) (fun h => h8 (h ▸ ha))
  have hiter : exec .iter s = .next (setPc (.run idx (3 + j)) u) := by
    rw [exec_iter_at hready hp ((iterPlan_getElem?_read hj).trans ha) (by rw [length_iterPlan_ready]; omega), hu,
      settle_ok, show 2 + j + 1 = 3 + j by omega]
  refine ⟨fun hread => ?_, _, hiter, rfl⟩
  change runPlan runAtomic (readPlan s.params) nextOperation (setPc (.run idx j) s) = _ at hread
  rw [runPlan_at rfl ha, huq] at hread
  cases hread
  exact hiter

/-- A SEND step of an iteration is SEND's, and a fault of the step leaves the pc where it was (R113, R116, R121). -/
theorem exec_iter_send {s t : State} {idx j : Nat} (hready : (s.rdyEng && s.rdyEp) = true) (hchg : s.chg = true)
    (hj : j < 6) (hp : s.pc = .run idx (4 + (readPlan s.params).length + j))
    (hsend : exec .send (setPc (.run idx j) s) = .next t) :
    exec .iter s = .next
      (setPc (if t.faults = s.faults then .run idx (5 + (readPlan s.params).length + j) else s.pc) t) := by
  obtain ⟨a, ha⟩ : ∃ a, sendPlan[j]? = some a := ⟨_, List.getElem?_eq_getElem hj⟩
  have hmore : 4 + (readPlan s.params).length + j + 1 < (iterPlan s.params true true).length := by
    rw [length_iterPlan_ready]
    simp [reportPlan, sendPlan]
    omega
  have hiter : exec .iter s = settle (runAtomic a s) (.run idx (5 + (readPlan s.params).length + j)) s := by
    rw [exec_iter_at hready hp (by rw [hchg, iterPlan_getElem?_send hj, ha]) (by rwa [hchg])]
    congr 2
    omega
  change runPlan runAtomic sendPlan nextOperation (setPc (.run idx j) s) = _ at hsend
  rw [runPlan_at rfl ha, runAtomic_setPc] at hsend
  rw [hiter]
  cases hr : runAtomic a s with
  | ok u =>
    obtain ⟨hf, -⟩ := runAtomic_keeps hr
    rw [hr] at hsend
    cases hsend
    simp only [setPc_faults, hf, if_true]
    rfl
  | error e =>
    obtain ⟨r, rfl⟩ : ∃ r, e = .fault r := by
      refine runAtomic_error ?_ hr
      rintro k rfl
      have := List.mem_of_getElem? ha
      simp [sendPlan] at this
      omega
    rw [hr] at hsend
    cases hsend
    have hne : (recordHalt (.fault r) (setPc (.run idx j) s)).faults ≠ s.faults := by simp [recordHalt]
    rw [if_neg hne]
    rfl

/-- Settles O30: at each place both plans hold the same atomic step, which neither reads nor writes the pc. -/
theorem iterRunsReadAndSend : Obligations.IterRunsReadAndSend :=
  fun _ _ _ _ hready => ⟨exec_iter_read hready, exec_iter_send hready⟩

/-! ### An iteration run through (R113 to R118) -/

theorem sendEnter_ready {s : State} (heng : s.engReady = true) (hbusy : s.epInBusy = false) :
    sendEnter s = .ok { s with csSave := s.ieUsb, ieUsb := false } := by
  simp [sendEnter, samplePort, heng, hbusy]

theorem sendArm_ready {s : State} (heng : s.engReady = true) (hbusy : s.epInBusy = false) :
    sendArm s = .ok (emit (.arm s.txbuf) { pulse (.armIn s.params.epIn) s with epInBusy := true }) := by
  simp [sendArm, samplePort, heng, hbusy]

/-- SEND's steps where the endpoint is ready (R103 to R107). -/
theorem runAll_sendPlan {s : State} (heng : s.engReady = true) (hbusy : s.epInBusy = false) :
    runAll sendPlan s = .ok
      { s with
        txbuf := s.report
        csSave := s.ieUsb
        epInBusy := true
        hist := s.hist ++ [.arm s.report]
        pulses := s.pulses ++
          [.txbufW 0 s.report.b0, .txbufW 1 s.report.b1, .txbufW 2 s.report.b2, .armIn s.params.epIn] } := by
  refine runAll_cons_ok.mpr ⟨_, sendEnter_ready heng hbusy, runAll_cons_ok.mpr ⟨_, sendCopy_zero _,
    runAll_cons_ok.mpr ⟨_, sendCopy_one _, runAll_cons_ok.mpr ⟨_, sendCopy_two _, runAll_cons_ok.mpr ⟨_, rfl,
    runAll_cons_ok.mpr ⟨_, sendArm_ready heng hbusy, ?_⟩⟩⟩⟩⟩⟩
  simp [runAll_nil, pulse, emit, sendExit]

/-- The indicator is lit for a state other than 0 (R95). -/
theorem active_eq_decide (v : Byte) : active v = decide (v ≠ 0) := by
  simp [active, bne, beq_eq_decide]

/-- ITER's steps behind a compare that found a change: the state read is reported and committed (R116). -/
theorem runAll_reportPlan {s : State} (heng : s.engReady = true) (hbusy : s.epInBusy = false) :
    runAll (reportPlan true) s = .ok
      { s with
        report := reportOf s.cur
        rstate := s.cur
        act := active s.cur
        last := s.cur
        txbuf := reportOf s.cur
        csSave := s.ieUsb
        epInBusy := true
        seqState := .idle
        hist := s.hist ++ [.arm (reportOf s.cur)]
        pulses := s.pulses ++ [.txbufW 0 (reportOf s.cur).b0, .txbufW 1 (reportOf s.cur).b1,
          .txbufW 2 (reportOf s.cur).b2, .armIn s.params.epIn] } :=
  runAll_cons_ok.mpr ⟨_, rfl, runAll_append_ok.mpr
    ⟨_, runAll_sendPlan (s := encodeEffect s) heng hbusy, rfl⟩⟩

/-- The state two steps into a ready iteration: both flags set, a pending packet acknowledged (R101, R102, R113). -/
def polled (s : State) : State :=
  { s with
    rdyEng := true
    rdyEp := true
    outPending := false
    pulses := s.pulses ++ (if s.outPending then [.rearmOut s.params.epOut] else [])
    hist := s.hist ++ (if s.outPending then [.drainAck] else [])
    seqState := .polling }

theorem runAll_poll {s : State} (heng : s.engReady = true) (hbusy : s.epInBusy = false) :
    runAll [.chkrdy, .drainAndPoll] s = .ok (polled s) := by
  refine runAll_cons_ok.mpr ⟨_, rfl, runAll_cons_ok.mpr ⟨_, rfl, ?_⟩⟩
  simp [runAll_nil, polled, drainAndPoll, chkrdyEffect, drainEffect_eq, samplePort, heng, hbusy]

/-- The state behind the compare of an iteration that began ready in s (R113, R118). -/
structure Acquired (s m : State) : Prop where
  ready : (m.rdyEng && m.rdyEp) = true
  cur : m.cur = readResult s
  chg : m.chg = changed (readResult s) s.last
  now : m.now = s.now + readTime s.params
  arms : arms m.hist = arms s.hist
  report : m.report = s.report
  rstate : m.rstate = s.rstate
  act : m.act = s.act
  last : m.last = s.last
  txbuf : m.txbuf = s.txbuf
  ieUsb : m.ieUsb = s.ieUsb
  engReady : m.engReady = true
  epInBusy : m.epInBusy = false
  outPending : m.outPending = false

/-- The steps of an iteration that acquires, up to its compare (R113). -/
def acquirePlan (p : Params) : List AtomicStep := [.chkrdy, .drainAndPoll] ++ (readPlan p ++ [AtomicStep.compare])

theorem iterPlan_eq (p : Params) (chg : Bool) : iterPlan p true chg = acquirePlan p ++ reportPlan chg := by
  simp [iterPlan, acquirePlan]

theorem runAll_acquire {s : State} (hs : ReadStarts s) (heng : s.engReady = true) (hbusy : s.epInBusy = false) :
    ∃ m, runAll (acquirePlan s.params) s = .ok m ∧ Acquired s m := by
  have hs' : ReadStarts (polled s) := hs
  obtain ⟨u, hu, h⟩ := runAll_readPlan hs'
  obtain ⟨⟨hrep, hrst, hact, hlast, -⟩, ⟨htx, hre, hrp, hie, -⟩, ⟨her, hbu, hout, -⟩, -⟩ :=
    runAll_line_frame (fun _ ha => isLine_of_mem_readPlan ha) hu
  have hcur : u.cur = readResult s := h.cur_eq
  have hall : runAll (acquirePlan s.params) s = .ok (compareAndBranch u) :=
    runAll_append_ok.mpr ⟨_, runAll_poll heng hbusy, runAll_append_ok.mpr ⟨u, hu, rfl⟩⟩
  have harms := runAll_arms (by simp [acquirePlan, not_mem_readPlan (a := .sendArm) (by rintro ⟨⟩)]) hall
  refine ⟨_, hall, ?_⟩
  rw [compareAndBranch_eq] at harms ⊢
  exact
    { ready := by simp [hre, hrp, polled]
      cur := hcur
      chg := by simp [hcur, hlast, polled]
      now := h.now_eq
      arms := harms
      report := hrep
      rstate := hrst
      act := hact
      last := hlast
      txbuf := htx
      ieUsb := hie
      engReady := her.trans heng
      epInBusy := hbu.trans hbusy
      outPending := hout }

/-- An iteration of the hardwired program that acquires, run through with no other agent's turn, is its steps in order, and
stands at (0, 0) again (R113, R117). -/
theorem run_iter {s u : State} {chg : Bool} (hsched : s.sched = []) (hsafe : Safe s) (hpc : s.pc = .run 0 0)
    (hprog : s.program = .hardwired) (hu : runAll (iterPlan s.params true chg) s = .ok u)
    (hready : (u.rdyEng && u.rdyEp) = true) (hchg : u.chg = chg) :
    Host.Core.run core (iterPlan s.params true chg).length s = .next (setPc (.run 0 0) u) := by
  obtain ⟨-, -, ⟨hpar, -⟩, -⟩ := runAll_keeps hu
  have hplan : planOf .iter u = iterPlan s.params true chg := by rw [planOf, hready, hchg, hpar]
  have hf : fetch s = some 0xE0 := (sequenceFetchAndEnd s 0 0 hpc).1 hprog rfl
  have hrun := run_composite (i := .iter) (.inr (.inr rfl)) ⟨hsched, hsafe, hpc, _, hf, rfl⟩ (hplan ▸ hu)
  rw [hplan, hprog] at hrun
  exact hrun

/-- Settles O32: the compare finds no change, so one step is left, which only ends the poll. -/
theorem iterNoChangeSendsNothing : Obligations.IterNoChangeSendsNothing := by
  intro s hsched hsafe hpc hprog hs heng hbusy hsame
  obtain ⟨m, hm, h⟩ := runAll_acquire hs heng hbusy
  have hchg : m.chg = false := by rw [h.chg, hsame]; simp [changed]
  obtain ⟨hfaults, -⟩ := runAll_keeps hm
  have hall : runAll (iterPlan s.params true false) s = .ok { m with seqState := .idle } := by
    rw [iterPlan_eq]
    exact runAll_append_ok.mpr ⟨m, hm, rfl⟩
  exact ⟨_, run_iter hsched hsafe hpc hprog hall h.ready hchg, h.cur, hchg, rfl, rfl, h.now, h.arms, h.last, h.report,
    h.rstate, h.act, h.txbuf, h.epInBusy, hfaults.trans hsafe.1, h.outPending⟩

/-- Settles O33: the compare finds a change, so the state read is encoded, sent and committed. -/
theorem iterChangeSendsOneReport : Obligations.IterChangeSendsOneReport := by
  intro s hsched hsafe hpc hprog hs heng hbusy hdiff
  obtain ⟨m, hm, h⟩ := runAll_acquire hs heng hbusy
  have hchg : m.chg = true := by rw [h.chg]; simpa [changed] using hdiff
  obtain ⟨hfaults, -⟩ := runAll_keeps hm
  have hall := runAll_append_ok.mpr ⟨m, hm, runAll_reportPlan h.engReady h.epInBusy⟩
  rw [← iterPlan_eq, h.cur] at hall
  have harms : arms (m.hist ++ [.arm (reportOf (readResult s))]) = arms s.hist ++ [reportOf (readResult s)] := by
    rw [arms_append, h.arms]
    rfl
  exact ⟨_, run_iter hsched hsafe hpc hprog hall h.ready hchg, rfl, hchg, rfl, rfl, active_eq_decide _, rfl, rfl, harms,
    rfl, h.ieUsb, h.ieUsb, rfl, rfl, h.now, hfaults.trans hsafe.1, h.outPending⟩

end Sys2Proof.Machine
end

section
/-! SUPPORT. The family 41_report_encoder: the bytes of a report, what a report loses, and ITER's steps outside READ and SEND
(R91 to R98, R101, R102, R113 to R117). -/

namespace Sys2Proof.Machine

/-! ### The bytes of a report (R91 to R94) -/

/-- The byte of an axis with a winning and a losing direction (R92, R93). -/
def axisByte (neg pos : Bool) : Byte := if neg then 0x80 else if pos then 0x7F else 0x00

theorem xAxis_eq (v : Byte) : xAxis v = axisByte (v.getLsbD 6) (v.getLsbD 7) := rfl

theorem yAxis_eq (v : Byte) : yAxis v = axisByte (v.getLsbD 4) (v.getLsbD 5) := rfl

/-- The zero state's report is populated to the same bytes it was zeroed to, so the report needs no case of it (R91). -/
theorem reportOf_eq (v : Byte) :
    reportOf v = ⟨axisByte (v.getLsbD 6) (v.getLsbD 7), axisByte (v.getLsbD 4) (v.getLsbD 5), v &&& 0x0F⟩ := by
  by_cases hv : v = 0
  · subst hv
    rfl
  · rw [reportOf, active_eq_decide, if_pos (by simpa using hv), xAxis_eq, yAxis_eq]
    rfl

/-- ENCODE's effect with the bytes and the indicator written out (R91 to R95). -/
theorem encodeEffect_eq (s : State) :
    encodeEffect s = { s with report := reportOf s.cur, rstate := s.cur, act := decide (s.cur ≠ 0) } := by
  rw [encodeEffect, active_eq_decide]

/-- Settles O20. -/
theorem encodeBuildsReport : Obligations.EncodeBuildsReport := by
  refine ⟨rfl, fun s idx hp => ?_⟩
  change single (.ok (encodeEffect s)) s = _
  rw [single_at hp, settle_ok, encodeEffect_eq, reportOf_eq]
  rfl

/-! ### What a report loses (R96) -/

/-- An axis byte tells the winning direction, and the losing one where the winner is not pressed. -/
theorem axisByte_eq_iff {n p n' p' : Bool} :
    axisByte n p = axisByte n' p' ↔ n = n' ∧ (n = false → p = p') := by
  cases n <;> cases p <;> cases n' <;> cases p' <;> decide

/-- Two bytes agree under a mask exactly when they agree at the mask's bits. -/
theorem and_eq_and_iff {u v m : Byte} :
    u &&& m = v &&& m ↔ ∀ j < 8, m.getLsbD j = true → u.getLsbD j = v.getLsbD j := by
  constructor
  · intro h j _ hm
    simpa [hm] using congrArg (·.getLsbD j) h
  · intro h
    refine BitVec.eq_of_getLsbD_eq fun j hj => ?_
    cases hm : m.getLsbD j with
    | false => simp [hm]
    | true => simp [hm, h j hj hm]

theorem getLsbD_0x5F_of_0x0F : ∀ j < 8, (0x0F : Byte).getLsbD j = true → (0x5F : Byte).getLsbD j = true := by decide

/-- The mask 0x5F is the button nibble's with the bits of UP and LEFT. -/
theorem getLsbD_0x5F_cases :
    ∀ j < 8, (0x5F : Byte).getLsbD j = true → (0x0F : Byte).getLsbD j = true ∨ j = 4 ∨ j = 6 := by decide

/-- The bits the mask 0x5F leaves out are DOWN and RIGHT. -/
theorem getLsbD_0x5F_or : ∀ j < 8, (0x5F : Byte).getLsbD j = true ∨ j = 5 ∨ j = 7 := by decide

/-- The mask 0x5F keeps the button nibble and the two winning directions (R94, R96). -/
theorem and_0x5F_eq_iff {u v : Byte} :
    u &&& 0x5F = v &&& 0x5F ↔
      u &&& 0x0F = v &&& 0x0F ∧ u.getLsbD 4 = v.getLsbD 4 ∧ u.getLsbD 6 = v.getLsbD 6 := by
  simp only [and_eq_and_iff]
  constructor
  · intro h
    exact ⟨fun j hj hm => h j hj (getLsbD_0x5F_of_0x0F j hj hm), h 4 (by decide) rfl, h 6 (by decide) rfl⟩
  · rintro ⟨hlow, h4, h6⟩ j hj hm
    rcases getLsbD_0x5F_cases j hj hm with hl | rfl | rfl
    · exact hlow j hj hl
    · exact h4
    · exact h6

/-- Two states with one report agree at every bit but a losing direction's (R96). -/
theorem reportOf_eq_reportOf_iff {u v : Byte} :
    reportOf u = reportOf v ↔
      u &&& 0x5F = v &&& 0x5F ∧
        (u.getLsbD 4 = false → u.getLsbD 5 = v.getLsbD 5) ∧ (u.getLsbD 6 = false → u.getLsbD 7 = v.getLsbD 7) := by
  simp only [reportOf_eq, Bytes3.mk.injEq, axisByte_eq_iff, and_0x5F_eq_iff]
  tauto

/-- Settles O21: the zero state presses no winning direction, so a state with its report presses no losing one either. -/
theorem reportLosesOnlyLosers : Obligations.ReportLosesOnlyLosers := by
  refine ⟨fun u v => reportOf_eq_reportOf_iff, fun u hu => ?_⟩
  have hzero : reportOf u = reportOf 0 := hu
  obtain ⟨hmask, h5, h7⟩ := reportOf_eq_reportOf_iff.mp hzero
  have hbits := and_eq_and_iff.mp hmask
  refine BitVec.eq_of_getLsbD_eq fun j hj => ?_
  rcases getLsbD_0x5F_or j hj with hm | rfl | rfl
  · exact hbits j hj hm
  · exact h5 (hbits 4 (by decide) rfl)
  · exact h7 (hbits 6 (by decide) rfl)

/-! ### ITER's own steps (R113 to R117) -/

/-- CHG is raised by states that differ (R97). -/
theorem changed_eq_decide (cur last : Byte) : changed cur last = decide (cur ≠ last) := by
  simp [changed, bne, beq_eq_decide]

/-- ITER's second step acknowledges a packet only when the engine is ready and one is pending (R102, R113). -/
theorem drainAndPoll_eq (s : State) :
    drainAndPoll s =
      if s.rdyEng = true ∧ s.outPending = true then
        { s with
          outPending := false
          pulses := s.pulses ++ [.rearmOut s.params.epOut]
          hist := s.hist ++ [.drainAck]
          seqState := .polling }
      else { s with seqState := .polling } := by
  cases hr : s.rdyEng with
  | false => simp [drainAndPoll, hr]
  | true => cases ho : s.outPending <;> simp [drainAndPoll, drainEffect, samplePort, pulse, emit, hr, ho]

theorem iterFinish_eq (p : Program) (idx : Nat) :
    iterFinish p idx = if p = .hardwired then .run 0 0 else .run (idx + 1) 0 := by
  cases p <;> rfl

/-- What ITER does behind its compare stands three steps behind READ's last place in its plan (R113). -/
theorem iterPlan_getElem?_report {p : Params} {chg : Bool} {j : Nat} :
    (iterPlan p true chg)[3 + (readPlan p).length + j]? = (reportPlan chg)[j]? := by
  have hlen : (acquirePlan p).length = 3 + (readPlan p).length := by simp [acquirePlan]; omega
  rw [iterPlan_eq, ← hlen, List.getElem?_append_right (by omega), Nat.add_sub_cancel_left]

/-- A step of ITER but its last (R113). -/
theorem exec_iter_inner {s : State} {idx sub : Nat} {a : AtomicStep} (hp : s.pc = .run idx sub)
    (ha : (planOf .iter s)[sub]? = some a) (hmore : sub + 1 < (planOf .iter s).length) :
    exec .iter s = settle (runAtomic a s) (.run idx (sub + 1)) s := by
  change runPlan runAtomic (planOf .iter s) (iterFinish s.program) s = _
  rw [runPlan_at hp ha, afterStep, if_neg hmore.ne]

/-- ITER's last step (R113, R117). -/
theorem exec_iter_last {s : State} {idx sub : Nat} {a : AtomicStep} (hp : s.pc = .run idx sub)
    (ha : (planOf .iter s)[sub]? = some a) (hlast : sub + 1 = (planOf .iter s).length) :
    exec .iter s =
      settle (runAtomic a s) (if s.program = .hardwired then .run 0 0 else .run (idx + 1) 0) s := by
  change runPlan runAtomic (planOf .iter s) (iterFinish s.program) s = _
  rw [runPlan_at hp ha, afterStep, if_pos hlast, iterFinish_eq]

/-- ITER has at least three steps (R113). -/
theorem two_lt_length_planOf_iter (s : State) : 2 < (planOf .iter s).length := by
  cases hr : s.rdyEng && s.rdyEp <;> simp [planOf, iterPlan, hr]

/-- ITER's plan where the iteration does not acquire (R114). -/
theorem planOf_iter_notReady {s : State} (h : (s.rdyEng && s.rdyEp) = false) :
    planOf .iter s = [.chkrdy, .drainAndPoll, .idle] := by
  rw [planOf, h]
  rfl

/-- ITER's plan where the iteration acquires (R113). -/
theorem planOf_iter_ready {s : State} {chg : Bool} (h : (s.rdyEng && s.rdyEp) = true) (hchg : s.chg = chg) :
    planOf .iter s = iterPlan s.params true chg := by
  rw [planOf, h, hchg]

/-- ITER's compare step (R97, R115). -/
theorem exec_iter_compare {s : State} {idx : Nat} (hready : (s.rdyEng && s.rdyEp) = true)
    (hp : s.pc = .run idx (2 + (readPlan s.params).length)) :
    exec .iter s = .next (setPc (.run idx (3 + (readPlan s.params).length)) (compareAndBranch s)) := by
  have hpos := List.length_pos_iff.mpr (reportPlan_ne_nil s.chg)
  rw [exec_iter_at hready hp (iterPlan_compare.mpr ⟨rfl, Nat.add_comm _ _⟩) (by rw [length_iterPlan_ready]; omega),
    show 2 + (readPlan s.params).length + 1 = 3 + (readPlan s.params).length by omega]
  rfl

/-- Settles O29: at each place ITER's plan holds one atomic step, the last one of an iteration where it finishes. -/
theorem iterControlSteps : Obligations.IterControlSteps := by
  rintro s idx fin rfl
  have hlen := two_lt_length_planOf_iter s
  refine ⟨fun hp => ?chkrdy, fun hp => ?drain, fun hp hready => ?notReady, fun hready hp => ?compare,
    fun hready hchg hp => ?noChange, fun hready hchg hp => ?encode, fun hready hchg hp => ?commit⟩
  case chkrdy =>
    rw [exec_iter_inner hp (a := .chkrdy) rfl (by omega)]
    rfl
  case drain =>
    rw [exec_iter_inner hp (a := .drainAndPoll) rfl (by omega)]
    change settle (.ok (drainAndPoll s)) _ s = _
    rw [settle_ok, drainAndPoll_eq, apply_ite (setPc _)]
    rfl
  case notReady =>
    have hplan := planOf_iter_notReady hready
    rw [exec_iter_last hp (a := .idle) (by rw [hplan]; rfl) (by rw [hplan]; rfl)]
    rfl
  case compare =>
    rw [exec_iter_compare hready hp, compareAndBranch_eq, changed_eq_decide]
    simp [setPc]
  case noChange =>
    have hplan := planOf_iter_ready hready hchg
    rw [exec_iter_last hp (a := .idle) (by rw [hplan]; exact iterPlan_getElem?_report (j := 0))
      (by rw [hplan, length_iterPlan_ready]; rfl)]
    rfl
  case encode =>
    have hplan := planOf_iter_ready hready hchg
    rw [exec_iter_inner hp (a := .encode) (by rw [hplan]; exact iterPlan_getElem?_report (j := 0))
      (by rw [hplan, length_iterPlan_ready]; simp [reportPlan])]
    change settle (.ok (encodeEffect s)) _ s = _
    rw [settle_ok, encodeEffect_eq, show 3 + (readPlan s.params).length + 1 = 4 + (readPlan s.params).length by omega]
    rfl
  case commit =>
    have hplan := planOf_iter_ready hready hchg
    have hat : 10 + (readPlan s.params).length = 3 + (readPlan s.params).length + 7 := by omega
    rw [hat] at hp
    rw [exec_iter_last hp (a := .commitAndIdle) (by rw [hplan]; exact iterPlan_getElem?_report (j := 7))
      (by rw [hplan, length_iterPlan_ready]; rfl)]
    rfl

end Sys2Proof.Machine
end

section
/-! SUPPORT. The family 42_change_detector: CMP and COMMIT, and the state that ITER's COMMIT latches (R97 to R99, R107, R116). -/

namespace Sys2Proof.Machine

/-! ### CMP and COMMIT (R97, R98) -/

/-- Settles O19. -/
theorem cmpComparesStates : Obligations.CmpComparesStates := by
  refine ⟨rfl, fun s idx hp => ?_⟩
  change single (.ok (cmpEffect s)) s = _
  rw [single_at hp, settle_ok, cmpEffect, changed_eq_decide]
  rfl

/-- Settles O22. -/
theorem commitLatchesRstate : Obligations.CommitLatchesRstate := by
  refine ⟨rfl, fun s idx hp => ?_⟩
  change single (.ok (commitEffect s)) s = _
  rw [single_at hp, settle_ok]
  rfl

/-! ### Steps that leave the hand-off as it stands -/

/-- The foreground's place, its freedom to move, and what the hand-off speaks of (RSTATE, LAST, the arms) are the same. -/
structure Undisturbed (s t : State) : Prop where
  stands : standsAt t = standsAt s
  program : t.program = s.program
  safe : Safe s → Safe t
  rstate : t.rstate = s.rstate
  last : t.last = s.last
  arms : arms t.hist = arms s.hist

theorem Undisturbed.trans {s t u : State} (h : Undisturbed s t) (h' : Undisturbed t u) : Undisturbed s u where
  stands := h'.stands.trans h.stands
  program := h'.program.trans h.program
  safe := h'.safe ∘ h.safe
  rstate := h'.rstate.trans h.rstate
  last := h'.last.trans h.last
  arms := h'.arms.trans h.arms

/-- Nothing of the hand-off is in the schedule, the buttons or the pending event. -/
theorem undisturbed_environment (s : State) (sched btn usbIrq) :
    Undisturbed s { s with sched := sched, btn := btn, usbIrq := usbIrq } :=
  ⟨rfl, rfl, id, rfl, rfl, rfl⟩

/-- The engine records ISR and the packet it sends, and arms nothing (R124, R125). -/
theorem arms_engineTurn (a : EngineActs) (s : State) : arms (engineTurn a s).hist = arms s.hist := by
  rcases engineTurn_cases a s with h | ⟨hh, -⟩
  · rw [h]
  · rw [hh, arms_append]
    split <;> exact List.append_nil _

theorem undisturbed_engineTurn (a : EngineActs) (s : State) : Undisturbed s (engineTurn a s) := by
  obtain ⟨-, -, ⟨-, hrstate, -, hlast, -⟩, -, ⟨-, hprog, -⟩, -, hf, hr, -⟩ := engineTurn_frame a s
  exact ⟨standsAt_engineTurn a s, hprog, fun ⟨h, h'⟩ => ⟨hf.trans h, hr.trans h'⟩, hrstate, hlast, arms_engineTurn a s⟩

/-- A turn of the engine, the buttons or the USB event always steps, and disturbs nothing of the hand-off (R52, R124). -/
theorem step_bystander {s : State} {turn : Turn} {rest : List Turn} (hs : s.sched = turn :: rest)
    (hturn : turn ≠ .foreground ∧ turn ≠ .reset) : ∃ t, step s = .next t ∧ t.sched = rest ∧ Undisturbed s t := by
  rw [step_cons hs]
  cases turn with
  | foreground => exact absurd rfl hturn.1
  | buttons b => exact ⟨_, rfl, rfl, undisturbed_environment s rest b s.usbIrq⟩
  | usbEvent => exact ⟨_, rfl, rfl, undisturbed_environment s rest s.btn true⟩
  | engine a =>
    obtain ⟨-, -, -, -, ⟨-, -, hsched⟩, -⟩ := engineTurn_frame a { s with sched := rest }
    exact ⟨_, rfl, hsched, (undisturbed_environment s rest s.btn s.usbIrq).trans (undisturbed_engineTurn a _)⟩
  | reset => exact absurd rfl hturn.2

/-- Whatever turns of the engine and the environment are taken, the hand-off stands as it was (R52). -/
theorem run_bystanders {s : State} (hturns : ∀ turn ∈ s.sched, turn ≠ .foreground ∧ turn ≠ .reset) :
    ∃ u, Host.Core.run core s.sched.length s = .next u ∧ u.sched = [] ∧ Undisturbed s u := by
  induction hs : s.sched generalizing s with
  | nil => exact ⟨s, rfl, hs, ⟨rfl, rfl, id, rfl, rfl, rfl⟩⟩
  | cons turn rest ih =>
    rw [hs] at hturns
    obtain ⟨hturn, hrest⟩ := List.forall_mem_cons.mp hturns
    obtain ⟨t, ht, hsched, hst⟩ := step_bystander hs hturn
    obtain ⟨u, hu, hnil, htu⟩ := ih (hsched ▸ hrest) hsched
    exact ⟨u, run_succ_iff.mpr ⟨t, ht, hu⟩, hnil, hst.trans htu⟩

/-- What a step is, for the hand-off: the foreground's, one that disturbs nothing, or a reset. -/
theorem step_foreground_or_undisturbed {s t : State} (h : step s = .next t) :
    (∃ sched, foreground { s with sched := sched } = .next t) ∨ Undisturbed s t ∨
      (s.sched.head? = some .reset ∧ t.pc = .boot 0) := by
  rcases step_next h with ⟨-, h⟩ | ⟨turn, rest, hs, ⟨-, h⟩ | ⟨-, rfl⟩ | ⟨b, -, rfl⟩ | ⟨-, rfl⟩ | ⟨a, -, rfl⟩ | ⟨rfl, rfl⟩⟩
  · exact .inl ⟨s.sched, h⟩
  · exact .inl ⟨rest, h⟩
  · exact .inr (.inl (undisturbed_environment s rest s.btn s.usbIrq))
  · exact .inr (.inl (undisturbed_environment s rest b s.usbIrq))
  · exact .inr (.inl (undisturbed_environment s rest s.btn true))
  · exact .inr (.inl ((undisturbed_environment s rest s.btn s.usbIrq).trans (undisturbed_engineTurn a _)))
  · exact .inr (.inr ⟨by rw [hs]; rfl, rfl⟩)

theorem standsAt_recordHalt (e : Halt) (s : State) : standsAt (recordHalt e s) = standsAt s := by
  rw [recordHalt_eq]
  rfl

/-! ### The foreground in the hardwired program (R113, R116, R117) -/

/-- In the hardwired program the foreground boots, takes a step of ITER's plan, or halts. -/
theorem foreground_hardwired {s t : State} (hprog : s.program = .hardwired) (h : foreground s = .next t) :
    (∃ e, t = recordHalt e s) ∨ (∃ b, s.pc = .boot b ∧ t = bootStep b s) ∨ ∃ a, PlanStep a s t := by
  rcases foreground_handOff h with h | h | ⟨-, -, hsup, -⟩ | h
  · exact .inl h
  · exact .inr (.inl h)
  · exact absurd hprog hsup
  · exact .inr (.inr h)

/-- LAST changes only at the COMMIT, to RSTATE (R98, R116). -/
theorem foreground_last {s t : State} (hprog : s.program = .hardwired) (h : foreground s = .next t)
    (hne : t.last ≠ s.last) : standsAt s = some .commitAndIdle ∧ t.last = s.rstate := by
  rcases foreground_hardwired hprog h with ⟨e, rfl⟩ | ⟨b, -, rfl⟩ | ⟨a, hstands, ⟨u, p, hu, rfl⟩, -⟩
  · obtain ⟨-, -, ⟨-, -, -, hlast, -⟩, -⟩ := recordHalt_frame e s
    exact absurd hlast hne
  · obtain ⟨-, -, -, -, -, hlast⟩ := bootStep_frame b s
    exact absurd hlast hne
  · by_cases hcommit : a = .commitAndIdle
    · subst hcommit
      cases hu
      exact ⟨hstands, rfl⟩
    · exact absurd ((runAtomic_writes hu).last hcommit) hne

/-- The foreground comes to stand at a COMMIT only by the arm before it (R107, R116). -/
theorem foreground_reaches_commit {s t : State} (hprog : s.program = .hardwired) (h : foreground s = .next t)
    (hs : standsAt s ≠ some .commitAndIdle) (ht : standsAt t = some .commitAndIdle) :
    standsAt s = some .sendArm ∧ arms t.hist = arms s.hist ++ [s.txbuf] ∧ t.rstate = s.rstate := by
  rcases foreground_hardwired hprog h with ⟨e, rfl⟩ | ⟨b, -, rfl⟩ | ⟨a, hstands, ⟨u, p, hu, rfl⟩, hnext, -⟩
  · rw [standsAt_recordHalt] at ht
    exact absurd ht hs
  · exact absurd ht (standsAt_ne_commit_of_fresh (bootStep_fresh b s))
  · rcases hnext _ ht with hprior | hprior
    · cases hprior
    · obtain rfl := Option.some.inj hprior
      cases sendArm_ok hu
      exact ⟨hstands, arms_append _ _, rfl⟩

/-! ### The arm and the COMMIT behind it -/

/-- In the hardwired program the pc stands at a step of ITER's plan (R117). -/
theorem standsAt_hardwired {s : State} {a : AtomicStep} (hprog : s.program = .hardwired) (h : standsAt s = some a) :
    ∃ idx sub, s.pc = .run idx sub ∧ fetch s = some 0xE0 ∧ (planOf .iter s)[sub]? = some a := by
  cases hp : s.pc with
  | boot b => simp [standsAt_boot hp] at h
  | run idx sub =>
    obtain rfl : idx = 0 := by
      cases idx with
      | zero => rfl
      | succ idx => simp [standsAt, fetch, hp, hprog, programWords] at h
    have hf : fetch s = some 0xE0 := (sequenceFetchAndEnd s 0 sub hp).1 hprog rfl
    exact ⟨0, sub, rfl, hf, (standsAt_at hp hf (i := .iter) rfl).symm.trans h⟩

/-- ITER's COMMIT is its last step (R113, R116). -/
theorem iterPlan_commitAndIdle {p : Params} {ready chg : Bool} {n : Nat}
    (h : (iterPlan p ready chg)[n]? = some .commitAndIdle) : n + 1 = (iterPlan p ready chg).length := by
  have hread : AtomicStep.commitAndIdle ∉ readPlan p := not_mem_readPlan (by rintro ⟨⟩)
  have hboth : ready = true ∧ chg = true := by
    have hm := List.mem_of_getElem? h
    cases ready <;> cases chg <;> simp [iterPlan, reportPlan, hread] at hm ⊢
  obtain ⟨rfl, rfl⟩ := hboth
  have hsplit : iterPlan p true true = (acquirePlan p ++ (.encode :: sendPlan)) ++ [.commitAndIdle] := by
    simp [iterPlan_eq, reportPlan]
  rw [hsplit] at h ⊢
  rw [getElem?_append_cons_iff (by simp [acquirePlan, sendPlan, hread]) (by simp)] at h
  simp [h, Nat.add_assoc]

/-- Where the endpoint is ready the arm enqueues TXBUF and leads to the COMMIT (R107, R113). -/
theorem step_sendArm {s : State} (hprog : s.program = .hardwired) (hsched : s.sched = []) (hsafe : Safe s)
    (hstands : standsAt s = some .sendArm) (heng : s.engReady = true) (hbusy : s.epInBusy = false) :
    ∃ p u, sendArm s = .ok u ∧ step s = .next (setPc p u) ∧ standsAt (setPc p u) = some .commitAndIdle := by
  obtain ⟨idx, sub, hp, hf, ha⟩ := standsAt_hardwired hprog hstands
  have hcommit := iterPlan_sendArm ha
  obtain ⟨hmore, -⟩ := List.getElem?_eq_some_iff.mp hcommit
  refine ⟨.run idx (sub + 1), _, sendArm_ready heng hbusy, ?_, ?_⟩
  · rw [step_nil hsched, foreground_exec hp hsafe hf (i := .iter) rfl, exec_iter_inner hp ha hmore, runAtomic,
      sendArm_ready heng hbusy, settle_ok]
  · refine (standsAt_at rfl (w := 0xE0) (i := .iter) ?_ rfl).trans hcommit
    simpa [fetch, hp] using hf

/-- The COMMIT latches RSTATE and ends the iteration (R98, R113, R116). -/
theorem step_commitAndIdle {s : State} (hprog : s.program = .hardwired) (hsched : s.sched = []) (hsafe : Safe s)
    (hstands : standsAt s = some .commitAndIdle) :
    step s = .next { s with last := s.rstate, seqState := .idle, pc := .run 0 0 } := by
  obtain ⟨idx, sub, hp, hf, ha⟩ := standsAt_hardwired hprog hstands
  rw [step_nil hsched, foreground_exec hp hsafe hf (i := .iter) rfl, exec_iter_last hp ha (iterPlan_commitAndIdle ha),
    if_pos hprog]
  rfl

/-- The bytes that stand to be armed are the report of RSTATE (R17, R49). -/
theorem txbuf_eq_report_of_sendArm {s : State} (hs : HandOff s) (hstands : standsAt s = some .sendArm) :
    s.txbuf = reportOf s.rstate := by
  obtain ⟨⟨-, -, hcopied⟩, hreport, -⟩ := hs
  rw [hstands] at hcopied
  exact Eq.trans hcopied hreport

/-- Settles O60: the foreground alone writes LAST and moves the pc; behind the arm every turn of another agent leaves RSTATE,
the pc and the arms alone, so that the COMMIT finds the state that was armed. -/
theorem commitLatchesArmedState : Obligations.CommitLatchesArmedState := by
  refine ⟨fun s t hprog hhead h hne => ?lastChanges, fun s t hprog h hs ht => ?reachesCommit,
    fun s hprog hsched hsafe hstands heng hbusy => ?armThenCommit⟩
  case lastChanges =>
    rcases step_foreground_or_undisturbed h with ⟨sched, h⟩ | hst | ⟨hreset, -⟩
    · exact foreground_last (s := { s with sched := sched }) hprog h hne
    · exact absurd hst.last hne
    · exact absurd hreset hhead
  case reachesCommit =>
    rcases step_foreground_or_undisturbed h with ⟨sched, h⟩ | hst | ⟨-, hboot⟩
    · exact foreground_reaches_commit (s := { s with sched := sched }) hprog h hs ht
    · exact absurd (hst.stands.symm.trans ht) hs
    · rw [standsAt_boot hboot] at ht
      cases ht
  case armThenCommit =>
    obtain ⟨p, t, ht, hstep, hcommit⟩ := step_sendArm hprog hsched hsafe hstands heng hbusy
    cases sendArm_ok ht
    refine ⟨_, hstep, hcommit, arms_append _ _, fun hs => txbuf_eq_report_of_sendArm hs hstands, fun turns hturns => ?_⟩
    obtain ⟨u, hrun, hnil, hu⟩ := run_bystanders (s := { setPc p _ with sched := turns }) hturns
    refine ⟨u, _, hrun, hnil, step_commitAndIdle (hu.program.trans hprog) hnil (hu.safe hsafe)
      (hu.stands.trans hcommit), hu.rstate, rfl, rfl, hu.arms.trans (arms_append _ _)⟩

end Sys2Proof.Machine
end

section
/-! SUPPORT. The family 43_transport_adapter: CHKRDY, SEND step by step and run through, an iteration that is not ready, and what the ARM
events carry (R101 to R109, R113, R114, R117). -/

namespace Sys2Proof.Machine

/-! ### CHKRDY (R101) -/

/-- Settles O17. -/
theorem chkrdySamplesBoth : Obligations.ChkrdySamplesBoth := by
  refine ⟨rfl, fun s idx hp => ?_⟩
  change single (.ok (chkrdyEffect s)) s = _
  rw [single_at hp, settle_ok]
  rfl

/-! ### SEND's atomic steps (R103 to R107) -/

/-- The endpoint is not ready while the engine is not, or while it owns the buffer (R32). -/
theorem samplePort_epInReady_eq_false {s : State} (h : s.engReady = false ∨ s.epInBusy = true) :
    samplePort .epInReady s = false := by
  rcases h with h | h <;> simp [samplePort, h]

theorem sendEnter_notReady {s : State} (h : s.engReady = false ∨ s.epInBusy = true) :
    sendEnter s = .error (.fault ⟨.sendNotReady, 0⟩) := by
  simp [sendEnter, samplePort_epInReady_eq_false h]

theorem sendArm_notReady {s : State} (h : s.engReady = false ∨ s.epInBusy = true) :
    sendArm s = .error (.fault ⟨.sendNotReady, 5⟩) := by
  simp [sendArm, samplePort_epInReady_eq_false h]

/-- SEND's step is its plan's step at sub (R30, R103). -/
theorem exec_send_at {s : State} {idx sub : Nat} {a : AtomicStep} (hp : s.pc = .run idx sub)
    (ha : sendPlan[sub]? = some a) :
    exec .send s = settle (runAtomic a s) (afterStep sendPlan nextOperation idx sub) s :=
  runPlan_at hp ha

/-- SEND's first step on an endpoint that is not ready faults (R104, R121). -/
theorem exec_send_enter_notReady {s : State} {idx : Nat} (hp : s.pc = .run idx 0)
    (h : s.engReady = false ∨ s.epInBusy = true) :
    exec .send s = .next { s with faults := s.faults ++ [⟨.sendNotReady, 0⟩] } := by
  rw [exec_send_at hp (a := .sendEnter) rfl, runAtomic, sendEnter_notReady h]
  rfl

/-- SEND's last step on an endpoint that is not ready faults (R107, R108, R121). -/
theorem exec_send_arm_notReady {s : State} {idx : Nat} (hp : s.pc = .run idx 5)
    (h : s.engReady = false ∨ s.epInBusy = true) :
    exec .send s = .next { s with faults := s.faults ++ [⟨.sendNotReady, 5⟩] } := by
  rw [exec_send_at hp (a := .sendArm) rfl, runAtomic, sendArm_notReady h]
  rfl

/-- Settles O23: at each sub the plan holds one step, and the two that check the endpoint have a case each way. -/
theorem sendSixSteps : Obligations.SendSixSteps := by
  refine ⟨rfl, fun s idx => ⟨fun hp hnot => ?notReady, fun hp heng hbusy => ?enter, fun hp => ?copy0, fun hp => ?copy1,
    fun hp => ?copy2, fun hp => ?leave, fun hp heng hbusy => ?arm⟩⟩
  case notReady =>
    rcases hp with hp | hp
    · exact ⟨0, hp, exec_send_enter_notReady hp hnot⟩
    · exact ⟨5, hp, exec_send_arm_notReady hp hnot⟩
  case enter =>
    rw [exec_send_at hp (a := .sendEnter) rfl, runAtomic, sendEnter_ready heng hbusy]
    rfl
  case copy0 => exact exec_send_at hp (a := .sendCopy 0) rfl
  case copy1 => exact exec_send_at hp (a := .sendCopy 1) rfl
  case copy2 => exact exec_send_at hp (a := .sendCopy 2) rfl
  case leave => exact exec_send_at hp (a := .sendExit) rfl
  case arm =>
    rw [exec_send_at hp (a := .sendArm) rfl, runAtomic, sendArm_ready heng hbusy]
    rfl

/-! ### SEND run through (R103 to R108) -/

/-- A safe foreground with no other agent's turn to come stands at the start of a SEND. -/
theorem begins_send {s : State} {idx : Nat} (hsched : s.sched = []) (hsafe : Safe s) (hpc : s.pc = .run idx 0)
    (hf : fetch s = some 0xC0) : Begins .send idx s :=
  ⟨hsched, hsafe, hpc, _, hf, rfl⟩

/-- Settles O25: run through, SEND is its six steps in order. -/
theorem sendHandsOverReport : Obligations.SendHandsOverReport := by
  intro s idx hsched hsafe hpc hf heng hbusy
  exact ⟨_, run_composite (i := .send) (.inr (.inl rfl)) (begins_send hsched hsafe hpc hf)
    (runAll_sendPlan heng hbusy), rfl⟩

/-- SEND's steps before its arm: the critical section that fills TXBUF (R104 to R106). -/
def fillPlan : List AtomicStep := [.sendEnter, .sendCopy 0, .sendCopy 1, .sendCopy 2, .sendExit]

theorem sendPlan_eq : sendPlan = fillPlan ++ [.sendArm] := rfl

/-- The state behind SEND's critical section, but for its pc: the report in TXBUF, and IE_USB as it was (R104 to R106). -/
def filled (s : State) : State :=
  { s with
    txbuf := s.report
    csSave := s.ieUsb
    pulses := s.pulses ++ [.txbufW 0 s.report.b0, .txbufW 1 s.report.b1, .txbufW 2 s.report.b2] }

theorem runAll_fillPlan {s : State} (heng : s.engReady = true) (hbusy : s.epInBusy = false) :
    runAll fillPlan s = .ok (filled s) := by
  refine runAll_cons_ok.mpr ⟨_, sendEnter_ready heng hbusy, runAll_cons_ok.mpr ⟨_, sendCopy_zero _,
    runAll_cons_ok.mpr ⟨_, sendCopy_one _, runAll_cons_ok.mpr ⟨_, sendCopy_two _, runAll_cons_ok.mpr ⟨_, rfl, ?_⟩⟩⟩⟩⟩
  simp [runAll_nil, filled, pulse, sendExit]

/-- Alone at SEND's arm with the endpoint not ready, the foreground faults and stops (R107, R108, R121). -/
theorem step_send_arm_notReady {s : State} {idx : Nat} (hsched : s.sched = []) (hsafe : Safe s)
    (hpc : s.pc = .run idx 5) (hf : fetch s = some 0xC0) (h : s.engReady = false ∨ s.epInBusy = true) :
    step s = .next { s with faults := [⟨.sendNotReady, 5⟩] } ∧
      step { s with faults := [⟨.sendNotReady, 5⟩] } = .fault .foregroundStopped := by
  refine ⟨?_, step_fault_alone hpc hsched (by simp)⟩
  rw [step_nil hsched, foreground_exec hpc hsafe hf (i := .send) rfl, exec_send_arm_notReady hpc h, hsafe.1]
  rfl

/-- Settles O24: the five steps of the critical section have run when the arm finds the endpoint not ready. -/
theorem sendFaultsWhenReadinessDrops : Obligations.SendFaultsWhenReadinessDrops := by
  intro s idx hsched hsafe hpc hf heng hbusy
  have hrun := run_steps (i := .send) (.inr (.inl rfl)) (begins_send hsched hsafe hpc hf)
    (runAll_fillPlan heng hbusy) ⟨[.sendArm], sendPlan_eq.symm⟩
  have hword : fetch (setPc (.run idx 5) (filled s)) = some 0xC0 := by simpa [fetch, hpc, filled] using hf
  obtain ⟨hfault, hstop⟩ := step_send_arm_notReady (s := { setPc (.run idx 5) (filled s) with engReady := false })
    hsched hsafe rfl hword (.inl rfl)
  exact ⟨_, _, hrun, rfl, rfl, rfl, hfault, rfl, rfl, hbusy, hstop⟩

/-! ### An iteration that is not ready (R114) -/

/-- The state behind an iteration that is not ready, but for its pc: the two flags as sampled, and a pending packet acknowledged
if the engine is ready (R101, R102, R113, R114). -/
def skipped (s : State) : State :=
  { s with
    rdyEng := s.engReady
    rdyEp := false
    outPending := s.outPending && !s.engReady
    pulses := s.pulses ++ (if s.engReady && s.outPending then [.rearmOut s.params.epOut] else [])
    hist := s.hist ++ (if s.engReady && s.outPending then [.drainAck] else [])
    seqState := .idle }

theorem runAll_skip {s : State} (hnot : (s.engReady && !s.epInBusy) = false) :
    runAll [.chkrdy, .drainAndPoll, .idle] s = .ok (skipped s) := by
  have heng : samplePort .engReady s = s.engReady := rfl
  have hep : samplePort .epInReady s = false := hnot
  refine runAll_cons_ok.mpr ⟨_, rfl, runAll_cons_ok.mpr ⟨_, rfl, runAll_cons_ok.mpr ⟨_, rfl, ?_⟩⟩⟩
  cases he : s.engReady <;> simp [runAll_nil, skipped, drainAndPoll, chkrdyEffect, drainEffect_eq, heng, hep, he]

/-- Settles O31: with RDY_EP at 0 the plan holds three steps, and they run in order. -/
theorem iterNotReadySkips : Obligations.IterNotReadySkips := by
  intro s hsched hsafe hpc hprog hnot
  have hf : fetch s = some 0xE0 := (sequenceFetchAndEnd s 0 0 hpc).1 hprog rfl
  have hplan : planOf .iter (skipped s) = [.chkrdy, .drainAndPoll, .idle] :=
    planOf_iter_notReady (Bool.and_false s.engReady)
  have hrun := run_composite (i := .iter) (.inr (.inr rfl)) ⟨hsched, hsafe, hpc, _, hf, rfl⟩
    (hplan ▸ runAll_skip hnot)
  rw [hplan, hprog] at hrun
  exact hrun

/-! ### What the ARM events carry (R48, R107, R109) -/

/-- Quiet events enqueue nothing (R48). -/
theorem arms_append_quiet {h es : List Event} (hq : ∀ e ∈ es, Quiet e) : arms (h ++ es) = arms h := by
  rw [arms_append, arms_quiet hq, List.append_nil]

/-- A reset enqueues nothing (R137). -/
theorem arms_resetStep (s : State) : arms (resetStep s).hist = arms s.hist :=
  (arms_append s.hist [.reset]).trans (List.append_nil _)

/-- The foreground enqueues a report only at SEND's arm, and it is what TXBUF holds (R48, R107). -/
theorem foreground_arms {s t : State} (h : foreground s = .next t) :
    arms t.hist = arms s.hist ∨
      (standsAt s = some .sendArm ∧ arms t.hist = arms s.hist ++ [s.txbuf] ∧ t.txbuf = s.txbuf ∧ t.epInBusy = true) := by
  rcases foreground_handOff h with ⟨e, rfl⟩ | ⟨b, -, rfl⟩ | ⟨⟨⟨es, hh, hq⟩, -⟩, -⟩ | ⟨a, hstands, ⟨u, p, hu, rfl⟩, -⟩
  · obtain ⟨-, -, -, -, -, -, hh, -⟩ := recordHalt_frame e s
    exact .inl (by rw [hh])
  · obtain ⟨hh, -⟩ := bootStep_frame b s
    exact .inl (by rw [hh])
  · exact .inl (by rw [hh, arms_append_quiet hq])
  · by_cases harm : a = .sendArm
    · subst harm
      cases sendArm_ok hu
      exact .inr ⟨hstands, arms_append _ _, rfl, rfl⟩
    · obtain ⟨es, hh, hq⟩ := runAtomic_hist hu
      exact .inl (by rw [setPc_hist, hh, arms_append_quiet (hq harm)])

/-- Where the hand-off invariant holds, what the foreground enqueues is REPORT, the report of RSTATE (R103, R107, R109). -/
theorem foreground_arms_report {s t : State} (hs : HandOff s) (h : foreground s = .next t) :
    arms t.hist = arms s.hist ∨
      (arms t.hist = arms s.hist ++ [s.report] ∧ s.report = reportOf s.rstate ∧ t.txbuf = s.report ∧
        t.epInBusy = true) := by
  refine (foreground_arms h).imp id fun ⟨hstands, harms, htx, hbusy⟩ => ?_
  have hencoded := txbuf_eq_report_of_sendArm hs hstands
  obtain ⟨-, hreport, -⟩ := hs
  have hbuf : s.txbuf = s.report := hencoded.trans hreport.symm
  rw [← hbuf]
  exact ⟨harms, hencoded, htx, hbusy⟩

/-- Settles O55: only the foreground arms. -/
theorem armsCarryEncodedState : Obligations.ArmsCarryEncodedState := by
  intro s t hs h
  rcases step_next h with ⟨-, h⟩ | ⟨turn, rest, -, ⟨-, h⟩ | ⟨-, rfl⟩ | ⟨b, -, rfl⟩ | ⟨-, rfl⟩ | ⟨a, -, rfl⟩ | ⟨-, rfl⟩⟩
  · exact foreground_arms_report hs h
  · exact foreground_arms_report (s := { s with sched := rest }) hs h
  · exact .inl rfl
  · exact .inl rfl
  · exact .inl rfl
  · exact .inl (arms_engineTurn a _)
  · exact .inl (arms_resetStep _)

end Sys2Proof.Machine
end

section
/-! SUPPORT. The family 44_sequencer: NOP (R74, R75, R111). -/

namespace Sys2Proof.Machine

/-- Settles O8: NOP is the one-step operation whose effect is the state as it stands. -/
theorem nopOnlyAdvancesPc : Obligations.NopOnlyAdvancesPc := by
  refine ⟨rfl, fun s idx hp => ?_⟩
  change single (.ok s) s = _
  rw [single_at hp, settle_ok]
  rfl

end Sys2Proof.Machine
end

section
/-! SUPPORT. The family 60_exceptions: the engine's step, one equation per action (R124 to R126, R128). -/

namespace Sys2Proof.Machine

/-- The transmit action, chosen or not: only with an arm outstanding is there a packet to record (R125). -/
theorem engineTransmit_chosen_eq (b : Bool) (s : State) :
    (if b then engineTransmit s else s) =
      { s with
        epInBusy := s.epInBusy && !b
        hist := s.hist ++ if b && s.epInBusy then [.tx s.txbuf] else [] } := by
  cases b with
  | false => simp
  | true =>
    cases hb : s.epInBusy with
    | false =>
      have hkeep : ({ s with epInBusy := false } : State) = s := by rw [← hb]
      simp [engineTransmit, hb, hkeep]
    | true => simp [engineTransmit, hb, emit]

/-- The ready action writes ENG_READY_E, and only an endpoint reset clears EP_IN_BUSY_E (R126). -/
theorem engineReadyAct_eq (a : ReadyAct) (s : State) :
    engineReadyAct a s =
      { s with
        engReady := (engineReadyAct a s).engReady
        epInBusy := s.epInBusy && (a != .endpointReset) } := by
  cases a with
  | keep =>
    have hkeep : (ReadyAct.keep != .endpointReset) = true := rfl
    simp [engineReadyAct, hkeep]
  | up | down | endpointReset => simp [engineReadyAct]

/-- The packet action, chosen or not, leaves what is pending pending (R126). -/
theorem engineOutPacket_chosen_eq (b : Bool) (s : State) :
    (if b then engineOutPacket s else s) = { s with outPending := s.outPending || b } := by
  cases b <;> simp [engineOutPacket]

/-- An engine with an event pending and IE_USB set does its work (R123, R124). -/
theorem engineTurn_enabled {s : State} (a : EngineActs) (hie : s.ieUsb = true) (hirq : s.usbIrq = true) :
    engineTurn a s = engineWork a s := by
  simp [engineTurn, engineEnabled, hie, hirq]

/-- Settles O42: the actions' equations composed in the order of R125 and R126, transmit before endpoint reset. -/
theorem engineStepWhenEnabled : Obligations.EngineStepWhenEnabled := by
  intro s a rest hs hie hirq
  rw [step_cons hs, takeTurn, engineTurn_enabled (s := { s with sched := rest }) a hie hirq, engineWork,
    engineTransmit_chosen_eq, engineReadyAct_eq, engineOutPacket_chosen_eq]
  simp only [emit, List.append_assoc, List.singleton_append]
  cases a.ready <;> rfl

end Sys2Proof.Machine
end
